-- ==== Sys2Proof/Word.lean ====
section
/-!
DEFINITION. The word types of the model: bytes of the instruction stream, the 32-bit registers
RDPMC names (rules R10, R11) and the 64-bit registers that contain them in 64-bit mode (R12).
-/
namespace Sys2Proof

/-- One byte of the instruction stream (R31, R40). -/
abbrev Byte := BitVec 8

/-- A 32-bit general register: ECX, EAX, EDX (R10, R11). -/
abbrev Word32 := BitVec 32

/-- The 64-bit register that contains a 32-bit one (R12). -/
abbrev Word64 := BitVec 64

end Sys2Proof
end

