-- ==== Sys2Proof/Config.lean ====
section
/-!
DEFINITION. What a processor fixes (the record `cfg` of rule R3) and the free values: what the spec
leaves unconstrained is an opaque constant here, without a body, so that no proof can see its value.
The fields' values per processor (Table 4-12, R21, R22) are in Machine/Processors.lean.
-/
namespace Sys2Proof

/-- Which Operation body applies, `cfg.variant` (R3, R53). -/
inductive Variant where
  | coreI7
  | core2
  | p6
  | family15
deriving DecidableEq, Repr

/-- What ECX[31] = 1 does on `coreI7` and `core2`, `cfg.ECX31_POLICY` (R63, D4). -/
inductive Ecx31Policy where
  /-- The bit is not examined: the spec's choice. -/
  | ignore
  /-- #GP(0) whenever the bit is set. -/
  | fault
  /-- Both outcomes are admitted: a free value decides. -/
  | either
deriving DecidableEq, Repr

/-- What EDX holds after a special-purpose counter read, `cfg.EDX_SPECIAL` (R55, D5). -/
inductive EdxSpecial where
  /-- An unconstrained draw: the spec's choice. -/
  | any
  /-- EDX keeps its old value. -/
  | unchanged
  /-- EDX is 0. -/
  | zero
deriving DecidableEq, Repr

/-- What RAX[63:32] and RDX[63:32] hold after RDPMC in 64-bit mode, `cfg.UPPER32` (R12, D1). -/
inductive Upper32 where
  /-- Zero: the spec's choice. -/
  | zero
  /-- An unconstrained draw. -/
  | any
deriving DecidableEq, Repr

/-- A range of counter indices, both ends included. -/
structure IndexRange where
  lo : Nat
  hi : Nat
deriving DecidableEq, Repr

/-- The index lies in the range (unsigned comparison, R4). -/
def IndexRange.has (r : IndexRange) (i : Nat) : Bool :=
  decide (r.lo ≤ i) && decide (i ≤ r.hi)

/-- The configuration record of rule R3: "a processor is a value of that record". -/
structure Cfg where
  /-- Which Operation body applies. -/
  variant : Variant
  /-- Bit number of the top bit of a counter that is read with a high part (MSCB). -/
  mscb : Nat
  /-- Number of general-purpose counters (N_GP). -/
  nGp : Nat
  /-- Number of fixed-function counters (N_FIXED). -/
  nFixed : Nat
  /-- Range of the special-purpose counter indices (SPECIAL), consulted by `core2` only. -/
  special : Option IndexRange
  /-- Whether indices 18 to 25 exist (L3_CTRS), consulted by `family15` only. -/
  l3Ctrs : Bool
  /-- Whether the processor has 64-bit and compatibility modes at all (HAS_64BIT_MODE, D16). -/
  has64BitMode : Bool
  /-- ECX31_POLICY. -/
  ecx31Policy : Ecx31Policy
  /-- EDX_SPECIAL. -/
  edxSpecial : EdxSpecial
  /-- UPPER32. -/
  upper32 : Upper32
deriving DecidableEq, Repr

/-- The counters of rule R20: the file `PMC[i]` (general-purpose and special-purpose, and the
indices 18 to 25 of family 15) and the file `FIXED[i]`. -/
inductive Counter where
  | pmc (i : Nat)
  | fixed (i : Nat)
deriving DecidableEq, Repr

namespace Config

/-- `CtrRead(c)` (R59, D10, U8): the value of counter `c`, of `c`'s width `w`, that the execution with
draw number `draw` observes. Unconstrained: FREE VALUE, log entry 2. -/
opaque ctrSample (draw : Nat) (c : Counter) (w : Nat) : BitVec w

/-- EDX after a special-purpose read under `EDX_SPECIAL = any` (R55, D5, U10): FREE VALUE, log
entry 3. -/
opaque specialEdx (draw : Nat) : Word32

/-- RAX[63:32] in 64-bit mode under `UPPER32 = any` (R12, D1, U11): FREE VALUE, log entry 4. -/
opaque raxUpper (draw : Nat) : Word32

/-- RDX[63:32] in 64-bit mode under `UPPER32 = any` (R12, D1, U11): FREE VALUE, log entry 4. -/
opaque rdxUpper (draw : Nat) : Word32

/-- Whether an execution with ECX[31] = 1 faults under `ECX31_POLICY = either` (R63, D4, U7): FREE
VALUE, log entry 5. -/
opaque ecx31Faults (draw : Nat) : Bool

end Config

end Sys2Proof
end

