-- ==== Sys2Proof/Machine/Processors.lean ====
section
/-!
DEFINITION. Which processor is which configuration: Table 4-12 (R21), the ready-made configuration
of each of its rows (R22), and the width of each counter (R20).
-/
namespace Sys2Proof

/-- The processors of R22: the twelve rows of Table 4-12, in the source's order, and the Pentium
processor with MMX technology, which has no row (D23). -/
inductive Processor where
  /-- Row 1. -/
  | p6Family
  /-- Row 2: Pentium 4, Intel Xeon, 0FH_00H to 0FH_02H. -/
  | pentium4
  /-- Row 3: Pentium 4, Intel Xeon, L3 absent. -/
  | pentium4NoL3
  /-- Row 4. -/
  | pentiumM
  /-- Row 5: 64-bit Intel Xeon with L3. -/
  | xeon64L3
  /-- Row 6: Core Solo, Core Duo, Dual-core Xeon LV. -/
  | coreDuo
  /-- Row 7: Core 2 Duo, Xeon 3000, 5100, 5300, 7300. -/
  | core2Duo
  /-- Row 8: Xeon 7100 with L3. -/
  | xeon7100L3
  /-- Row 9: Core 2 Duo family, Xeon family, 06H_17H. -/
  | core2Family
  /-- Row 10. -/
  | xeon7400
  /-- Row 11: its variant, MSCB and N_FIXED are OPEN (D12). -/
  | atom
  /-- Row 12: Core i7, Xeon 5500 (and 3400); its N_FIXED is OPEN (D11). -/
  | coreI7Family
  /-- No row: the Operation heading groups it with P6. -/
  | pentiumMmx
deriving DecidableEq, Repr

/-- Every processor of R22. -/
def Processor.all : List Processor :=
  [.p6Family, .pentium4, .pentium4NoL3, .pentiumM, .xeon64L3, .coreDuo, .core2Duo, .xeon7100L3,
   .core2Family, .xeon7400, .atom, .coreI7Family, .pentiumMmx]

/-- The values R22 leaves OPEN and the three policies of R3. -/
structure OpenParams where
  /-- Intel Atom's variant (D12). -/
  variant : Variant
  /-- Intel Atom's MSCB (D12). -/
  mscb : Nat
  /-- N_FIXED of Core i7 (D11) and of Intel Atom (D12). -/
  nFixed : Nat
  /-- HAS_64BIT_MODE, OPEN per processor (D16). -/
  has64BitMode : Bool
  ecx31Policy : Ecx31Policy
  edxSpecial : EdxSpecial
  upper32 : Upper32
deriving DecidableEq, Repr

/-- Column "DisplayFamily_DisplayModel" of Table 4-12 as (family, model) pairs (R5, R21). -/
def Processor.signatures : Processor → List (Nat × Nat)
  | .p6Family => [(0x06, 0x01), (0x06, 0x03), (0x06, 0x05), (0x06, 0x06), (0x06, 0x07), (0x06, 0x08),
      (0x06, 0x0A), (0x06, 0x0B)]
  | .pentium4 => [(0x0F, 0x00), (0x0F, 0x01), (0x0F, 0x02)]
  | .pentium4NoL3 => [(0x0F, 0x03), (0x0F, 0x04), (0x0F, 0x06)]
  | .pentiumM => [(0x06, 0x09), (0x06, 0x0D)]
  | .xeon64L3 => [(0x0F, 0x03), (0x0F, 0x04)]
  | .coreDuo => [(0x06, 0x0E)]
  | .core2Duo => [(0x06, 0x0F)]
  | .xeon7100L3 => [(0x0F, 0x06)]
  | .core2Family => [(0x06, 0x17)]
  | .xeon7400 => [(0x06, 0x1D)]
  | .atom => [(0x06, 0x1C)]
  | .coreI7Family => [(0x06, 0x1A), (0x06, 0x1E), (0x06, 0x1F), (0x06, 0x2E)]
  | .pentiumMmx => []

/-- Column "Other Signatures" of Table 4-12: the condition on L3, where the row has one. -/
def Processor.l3Condition : Processor → Option Bool
  | .pentium4NoL3 => some false
  | .xeon64L3 => some true
  | .xeon7100L3 => some true
  | _ => none

/-- The row's signature fits a processor (R21). -/
def Processor.fits (p : Processor) (family model : Nat) (l3 : Bool) : Bool :=
  p.signatures.contains (family, model) &&
    (match p.l3Condition with
     | none => true
     | some b => l3 == b)

/-- The row of Table 4-12 that a signature selects (R21, R91 (b)). -/
def processorOf (family model : Nat) (l3 : Bool) : Option Processor :=
  Processor.all.find? (fun p => p.fits family model l3)

/-- Column "Valid PMC Index Range" of Table 4-12 (R21); the Pentium with MMX has no row. -/
def Processor.validPmcRange : Processor → Option IndexRange
  | .p6Family => some ⟨0, 1⟩
  | .pentium4 => some ⟨0, 17⟩
  | .pentium4NoL3 => some ⟨0, 17⟩
  | .pentiumM => some ⟨0, 1⟩
  | .xeon64L3 => some ⟨0, 25⟩
  | .coreDuo => some ⟨0, 1⟩
  | .core2Duo => some ⟨0, 1⟩
  | .xeon7100L3 => some ⟨0, 25⟩
  | .core2Family => some ⟨0, 1⟩
  | .xeon7400 => some ⟨0, 9⟩
  | .atom => some ⟨0, 1⟩
  | .coreI7Family => some ⟨0, 3⟩
  | .pentiumMmx => none

/-- Column "General-purpose Counters" of Table 4-12 (R21). -/
def Processor.generalPurposeRange : Processor → Option IndexRange
  | .p6Family => some ⟨0, 1⟩
  | .pentium4 => some ⟨0, 17⟩
  | .pentium4NoL3 => some ⟨0, 17⟩
  | .pentiumM => some ⟨0, 1⟩
  | .xeon64L3 => some ⟨0, 17⟩
  | .coreDuo => some ⟨0, 1⟩
  | .core2Duo => some ⟨0, 1⟩
  | .xeon7100L3 => some ⟨0, 17⟩
  | .core2Family => some ⟨0, 1⟩
  | .xeon7400 => some ⟨0, 1⟩
  | .atom => some ⟨0, 1⟩
  | .coreI7Family => some ⟨0, 3⟩
  | .pentiumMmx => none

/-- A configuration with the given numbers of R22 and the OPEN policies. -/
def OpenParams.toCfg (o : OpenParams) (v : Variant) (mscb nGp nFixed : Nat)
    (special : Option IndexRange) (l3 : Bool) : Cfg :=
  { variant := v, mscb := mscb, nGp := nGp, nFixed := nFixed, special := special, l3Ctrs := l3,
    has64BitMode := o.has64BitMode, ecx31Policy := o.ecx31Policy, edxSpecial := o.edxSpecial,
    upper32 := o.upper32 }

/-- The ready-made configuration of each processor (R22). -/
def Processor.cfg (p : Processor) (o : OpenParams) : Cfg :=
  match p with
  | .p6Family => o.toCfg .p6 39 2 0 none false
  | .pentium4 => o.toCfg .family15 39 18 0 none false
  | .pentium4NoL3 => o.toCfg .family15 39 18 0 none false
  | .pentiumM => o.toCfg .p6 39 2 0 none false
  | .xeon64L3 => o.toCfg .family15 39 18 0 none true
  | .coreDuo => o.toCfg .p6 39 2 0 none false
  | .core2Duo => o.toCfg .core2 39 2 3 none false
  | .xeon7100L3 => o.toCfg .family15 39 18 0 none true
  | .core2Family => o.toCfg .core2 39 2 3 none false
  | .xeon7400 => o.toCfg .core2 39 2 3 (some ⟨2, 9⟩) false
  | .atom => o.toCfg o.variant o.mscb 2 o.nFixed none false
  | .coreI7Family => o.toCfg .coreI7 47 4 o.nFixed none false
  | .pentiumMmx => o.toCfg .p6 39 2 0 none false

/-- The index names a special-purpose counter of this configuration (R20, R55). -/
def Cfg.isSpecial (k : Cfg) (i : Nat) : Bool :=
  match k.special with
  | none => false
  | some r => r.has i

/-- The width in bits of each counter, as RDPMC sees it (R20). The special-purpose counters and the
counters 18 to 25 of family 15 have 32 bits; every other counter has MSCB + 1 bits, which R3 and R22
make 48 on `coreI7` and 40 on `core2`, `p6` and `family15` but for Intel Atom, whose MSCB is OPEN (D12;
log entry 27). -/
def Cfg.counterWidth (k : Cfg) : Counter → Nat
  | .fixed _ => k.mscb + 1
  | .pmc i =>
    match k.variant with
    | .coreI7 => k.mscb + 1
    | .core2 => if k.nGp ≤ i ∧ k.isSpecial i = true then 32 else k.mscb + 1
    | .p6 => k.mscb + 1
    | .family15 => if i < k.nGp then k.mscb + 1 else 32

end Sys2Proof
end

