-- ==== Sys2Proof/Machine/State.lean ====
section
/-!
DEFINITION. The state: every piece of state the spec gives the machine (summary table of
10_state.md, rules R10 to R26), as plain data, with the processor's configuration `cfg` and the
number of draws taken so far; the reasons a step can stop; and the state after reset.
-/
namespace Sys2Proof.Machine

/-- The five operating modes (R19). -/
inductive Mode where
  | realAddress
  | protectedMode
  | virtual8086
  | compatibility
  | mode64
deriving DecidableEq, Repr

/-- The program text: (address, byte) pairs, addresses strictly rising. An unlisted address holds no
byte (log entry 10). RDPMC has no memory operand (R30); no instruction writes the text (D20). -/
abbrev Memory := List Host.Cell

/-- The machine's state. -/
@[ext]
structure State where
  /-- RAX; EAX is bits 31:0 (R11, R12). -/
  rax : Word64
  /-- RCX; ECX is bits 31:0 (R10, R12). -/
  rcx : Word64
  /-- RDX; EDX is bits 31:0 (R11, R12). -/
  rdx : Word64
  /-- Every other general register (R14); the spec gives neither their number nor their names, so a
  list of any length. -/
  otherRegs : List Word64
  /-- The instruction pointer, an unbounded natural number (R13). -/
  pc : Nat
  /-- The flags register as a whole; the spec names no flag (R15). -/
  flags : Word64
  /-- CR4.PCE (R16). -/
  cr4Pce : Bool
  /-- CR0.PE (R17). -/
  cr0Pe : Bool
  /-- The current privilege level, 0 to 3 (R18). -/
  cpl : Fin 4
  /-- The operating mode, a component of its own (R19, D16). -/
  mode : Mode
  /-- The processor: the record `cfg` of R3. No step changes it (R53). -/
  cfg : Cfg
  /-- The program text (R31, D20). -/
  mem : Memory
  /-- The MODEL's own field: how many executions have drawn a counter sample. It numbers the draws of
  `CtrRead` (R59); the counters themselves hold "no value at all" (R26). -/
  draws : Nat
deriving DecidableEq, Repr

/-- Why the machine stops with a fault. The two exceptions carry the unchanged pre-state (R79) and
are terminal: the spec ends at "raise". -/
inductive Fault where
  /-- #GP(0) (R70). Raised by RDPMC when the privilege gate fails or ECX selects no counter. Safe: the
  machine stops where hardware delivers vector 13 (D9). -/
  | gp0 (pre : State)
  /-- #UD (R71). Raised by the LOCK-prefixed form. Safe: as `gp0`. -/
  | ud (pre : State)
  /-- The fetch reached an address that holds no byte of program text (R31, D20). Raised by `step`.
  Safe: no claim covers what hardware finds there. -/
  | noProgramText (address : Nat)
deriving DecidableEq, Repr

/-- Why the machine gives an instruction no meaning. -/
inductive Refusal where
  /-- An instruction of the opcode table without a meaning in `exec`: no arm uses it. Safe. -/
  | notModelled (mnemonic : String)
  /-- A prefix other than LOCK (R44, D7, U12). Raised by `step`. Safe. -/
  | otherPrefix (b : Byte)
  /-- Bytes that are no admitted form (R46): not an instruction of this spec. Raised by `step`.
  Safe. -/
  | unlistedEncoding (b : Byte)
deriving DecidableEq, Repr

/-- The three outcomes of a step (R79). -/
abbrev Result := Host.Outcome State Fault Refusal

/-- The OPEN values that the state after reset takes: the spec's choices for the three policies (R3),
and 64-bit mode present (PRESUMED, log entry 11). Variant, MSCB and N_FIXED are not OPEN for the
processor chosen there. -/
def resetParams : OpenParams :=
  { variant := .core2, mscb := 39, nFixed := 3, has64BitMode := true, ecx31Policy := .ignore,
    edxSpecial := .any, upper32 := .zero }

/-- The state after reset. The spec gives no reset value (R26, R90): CR0.PE, CR4.PCE, CPL and the mode
take the values R26 lists from general knowledge, and the rest the family's (log entry 1). The
processor is the Intel Xeon 7400 series (log entry 11). -/
def State.reset : State :=
  { rax := 0, rcx := 0, rdx := 0x106D1#64, otherRegs := List.replicate 13 0#64,
    pc := 0xFFFFFFF0, flags := 2#64, cr4Pce := false, cr0Pe := false, cpl := 0,
    mode := .realAddress, cfg := Processor.cfg .xeon7400 resetParams, mem := [], draws := 0 }

end Sys2Proof.Machine
end

