-- ==== Sys2Proof/Machine/Flags.lean ====
section
/-!
DEFINITION. The flag rule: "Flags Affected: None." (R15, R60). The spec has no flag computation.
-/
namespace Sys2Proof.Machine

/-- The flags register after RDPMC completes: as before (R60). -/
def flagsAfterRdpmc (f : Word64) : Word64 := f

/-- The state with the flags as RDPMC leaves them. -/
def State.rdpmcFlags (s : State) : State :=
  { s with flags := flagsAfterRdpmc s.flags }

end Sys2Proof.Machine
end

