-- ==== Sys2Proof/Syntax.lean ====
section
/-!
DEFINITION. The instructions: one constructor per row of spec/opcode_table.json. Neither row has a
field (R40: "the format has no field"); the operands are implicit (R41), so no constructor has an
argument.
-/
namespace Sys2Proof

/-- The two admitted forms of rule R44. -/
inductive Instr where
  /-- RDPMC, bytes `0F 33` (R40, R50). -/
  | rdpmc
  /-- The LOCK-prefixed form, bytes `F0 0F 33`: the one illegal encoding, which raises #UD
  (R43, R46, R71). -/
  | lockRdpmc
deriving DecidableEq, Repr

end Sys2Proof
end

