-- ==== Sys2Proof/Decode.lean ====
section
/-!
DEFINITION. The decoder (R40, R43, R44, R46, R48), total on any bytes and rejecting by name, then the
encoder, then the words of the opcode table as the host numbers them.
-/
namespace Sys2Proof

/-- Why the decoder gives no instruction. -/
inductive DecodeError where
  /-- The bytes end inside an admitted form. -/
  | truncated
  /-- A prefix other than LOCK stands before the opcode (R44, D7, U12). -/
  | otherPrefix (b : Byte)
  /-- The bytes begin no admitted form (R46): another instruction, or none. -/
  | unlisted (b : Byte)
deriving DecidableEq, Repr

/-- The first opcode byte (R40). -/
def opcodeByte0 : Byte := 0x0F#8

/-- The second opcode byte (R40). -/
def opcodeByte1 : Byte := 0x33#8

/-- The LOCK prefix. The source names the prefix and not its byte (R43, G8): log entry 7. -/
def lockByte : Byte := 0xF0#8

/-- The prefixes other than LOCK. 66H, 67H, F2H and F3H are named in R44 (G10); the bytes of the
segment overrides and of REX are PRESUMED (log entry 8). They decide only the NAME of a refusal. -/
def isOtherPrefix (b : Byte) : Bool :=
  b == 0x66#8 || b == 0x67#8 || b == 0xF2#8 || b == 0xF3#8 ||
  b == 0x26#8 || b == 0x2E#8 || b == 0x36#8 || b == 0x3E#8 || b == 0x64#8 || b == 0x65#8 ||
  (decide (0x40 ≤ b.toNat) && decide (b.toNat ≤ 0x4F))

/-- The name of a refusal at byte `b` (R44, R46). -/
def rejectAt (b : Byte) : DecodeError :=
  if isOtherPrefix b then .otherPrefix b else .unlisted b

/-- After the first opcode byte of `i`: the second must be `33`. -/
def decodeSecond (i : Instr) : List Byte → Except DecodeError (Instr × List Byte)
  | [] => .error .truncated
  | b :: rest => if b = opcodeByte1 then .ok (i, rest) else .error (.unlisted b)

/-- After the LOCK prefix: the two opcode bytes must follow (R48). -/
def decodeLocked : List Byte → Except DecodeError (Instr × List Byte)
  | [] => .error .truncated
  | b :: rest => if b = opcodeByte0 then decodeSecond .lockRdpmc rest else .error (rejectAt b)

/-- The decoder (R48): the bare form, the LOCK-prefixed form, nothing else (R44). No mode bit takes
part. Answers the instruction and the bytes after it. -/
def decode : List Byte → Except DecodeError (Instr × List Byte)
  | [] => .error .truncated
  | b :: rest =>
    if b = opcodeByte0 then decodeSecond .rdpmc rest
    else if b = lockByte then decodeLocked rest
    else .error (rejectAt b)

/-- The bytes of an instruction in stream order, lowest address first (opcode table; R31, R40, R43). -/
def encode : Instr → List Byte
  | .rdpmc => [0x0F#8, 0x33#8]
  | .lockRdpmc => [0xF0#8, 0x0F#8, 0x33#8]

/-- The length in bytes (R40: 2; R48: 3). -/
def instrLength : Instr → Nat
  | .rdpmc => 2
  | .lockRdpmc => 3

/-- The longest admitted form (R48). -/
def maxInstrLength : Nat := 3

/-- The bytes of a word of `n` bytes, the most significant first. spec/opcode_table.json numbers its
words so ("first byte (at pc) most significant"): log entry 9. -/
def bytesMsbFirst : Nat → Nat → List Byte
  | 0, _ => []
  | n + 1, w => BitVec.ofNat 8 (w / 2 ^ (8 * n)) :: bytesMsbFirst n w

/-- A table word laid out in stream order, and zero bytes up to the longest instruction. -/
def tableBytes (nbits w : Nat) : List Byte :=
  let n := (nbits + 7) / 8
  bytesMsbFirst n w ++ List.replicate (maxInstrLength - n) 0#8

/-- The instruction the decoder reads from a word of the opcode table. -/
def decodeTableWord (nbits w : Nat) : Option Instr :=
  match decode (tableBytes nbits w) with
  | .ok (i, _) => some i
  | .error _ => none

end Sys2Proof
end

