-- ==== Sys2Proof/Machine/Ops.lean ====
section
/-!
DEFINITION. The operations on memory, the counters, the program counter and exceptions that the
meanings are written in.
-/
namespace Sys2Proof.Machine

/-- The byte at an address, if the program text has one: `MemRead(addr, 1)` (R6, R31). -/
def Memory.read : Memory → Nat → Option Byte
  | [], _ => none
  | (k, b) :: rest, a => if k = a then some b else Memory.read rest a

/-- Place one byte, keeping the addresses strictly rising: `MemWrite(addr, 1, v)` (R6). No
instruction uses it (R30); it places program text. -/
def Memory.write : Memory → Nat → Byte → Memory
  | [], a, v => [(a, v)]
  | (k, b) :: rest, a, v =>
    if a < k then (a, v) :: (k, b) :: rest
    else if a = k then (k, v) :: rest
    else (k, b) :: Memory.write rest a v

/-- Place consecutive bytes from an address on. -/
def Memory.writeBytes (m : Memory) (a : Nat) : List Byte → Memory
  | [] => m
  | b :: rest => Memory.writeBytes (m.write a b) (a + 1) rest

/-- The canonical form: addresses strictly rising. (An unlisted address reads as no byte, so no entry
can equal what an unlisted address reads as.) -/
def Memory.wf : Memory → Bool
  | [] => true
  | [_] => true
  | (k, _) :: (k', b') :: rest => decide (k < k') && Memory.wf ((k', b') :: rest)

/-- Up to `n` consecutive bytes of program text from `a` on, ending at the first address without a
byte (R31). -/
def fetchBytes (m : Memory) (a : Nat) : Nat → List Byte
  | 0 => []
  | n + 1 =>
    match m.read a with
    | none => []
    | some b => b :: fetchBytes m (a + 1) n

/-- `CtrRead(c)` (R59): one sample of counter `c`, of the counter's width (R20). -/
def ctrRead (s : State) (c : Counter) : BitVec (s.cfg.counterWidth c) :=
  Config.ctrSample s.draws c (s.cfg.counterWidth c)

/-- `pc <- pc + len` (R13, R61). -/
def State.advancePc (s : State) (len : Nat) : State :=
  { s with pc := s.pc + len }

/-- This execution has taken its draw: the next one takes another (R59). -/
def State.nextDraw (s : State) : State :=
  { s with draws := s.draws + 1 }

/-- The two exceptions RDPMC raises (R70, R71). -/
inductive Exception where
  | gp0
  | ud
deriving DecidableEq, Repr

/-- Taking an exception: `raise` (R6, R79). The spec gives no delivery; the outcome is a terminal
fault that carries the unchanged pre-state. There is no return from an exception (R81). -/
def raise (e : Exception) (s : State) : Result :=
  match e with
  | .gp0 => .fault (.gp0 s)
  | .ud => .fault (.ud s)

/-- The exception's own error code (R70: 0; R71: none). -/
def Exception.errorCode : Exception → Option Nat
  | .gp0 => some 0
  | .ud => none

/-- The error code that a handler would be given: none in real-address mode (R73, R78, D17). -/
def Exception.deliveredErrorCode (e : Exception) (m : Mode) : Option Nat :=
  match m with
  | .realAddress => none
  | _ => e.errorCode

/-- The instruction pointer that an exception reports: the faulting instruction's own address, its
first prefix byte included (R78). -/
def Fault.savedPc : Fault → Option Nat
  | .gp0 pre => some pre.pc
  | .ud pre => some pre.pc
  | .noProgramText _ => none

end Sys2Proof.Machine
end

