-- ==== Sys2Proof/Machine/Operands.lean ====
section
/-!
DEFINITION. RDPMC's implicit operands (R41): ECX in, EDX:EAX out; the fields of ECX (R45); and the two
halves of a counter value (R33, R58).
-/
namespace Sys2Proof.Machine

/-- `x[EAX]`: bits 31:0 of RAX (R6, R12). -/
def State.eax (s : State) : Word32 := s.rax.extractLsb' 0 32

/-- `x[ECX]`: bits 31:0 of RCX; RCX[63:32] is not read (R10, R12, R64). -/
def State.ecx (s : State) : Word32 := s.rcx.extractLsb' 0 32

/-- `x[EDX]`: bits 31:0 of RDX (R6, R12). -/
def State.edx (s : State) : Word32 := s.rdx.extractLsb' 0 32

/-- Bits 63:32 after a write of the low half (R12): in 64-bit mode zero or a draw, as `cfg.UPPER32`
says; in the other modes, where they are not observable, as they were (log entry 12). -/
def State.upperAfter (s : State) (old : Word64) (drawn : Word32) : Word32 :=
  match s.mode with
  | .mode64 =>
    match s.cfg.upper32 with
    | .zero => 0#32
    | .any => drawn
  | _ => old.extractLsb' 32 32

/-- `x[EAX] <- v` (R6, R11, R12). -/
def State.writeEax (s : State) (v : Word32) : State :=
  { s with rax := s.upperAfter s.rax (Config.raxUpper s.draws) ++ v }

/-- `x[EDX] <- v` (R6, R11, R12). -/
def State.writeEdx (s : State) (v : Word32) : State :=
  { s with rdx := s.upperAfter s.rdx (Config.rdxUpper s.draws) ++ v }

/-- `x[EDX] <- hi` if `hi_opt = some hi`, nothing if `none` (R58). -/
def State.writeEdxOpt (s : State) : Option Word32 → State
  | some v => s.writeEdx v
  | none => s

/-- c[30]: the counter type on `coreI7` and `core2`, 1 for fixed-function (R45). -/
def ecxType (c : Word32) : Bool := c.getLsbD 30

/-- c[29:0]: the index on `coreI7` and `core2` (R45). -/
def ecxIndex30 (c : Word32) : Nat := (c.extractLsb' 0 30).toNat

/-- c[31]: the fast-read selector on `family15` (R45). -/
def ecxFast (c : Word32) : Bool := c.getLsbD 31

/-- c[30:0]: the index on `family15` (R45). -/
def ecxIndex31 (c : Word32) : Nat := (c.extractLsb' 0 31).toNat

/-- `v[31:0]`, the low-order 32 bits (R33). Fixed-function counters too (C1). -/
def lowHalf {w : Nat} (v : BitVec w) : Word32 := v.extractLsb' 0 32

/-- `zext_32(v[w-1:32])`, the supported high-order bits (R58, D3). -/
def highHalf {w : Nat} (v : BitVec w) : Word32 := v.extractLsb' 32 32

end Sys2Proof.Machine
end

