-- ==== Sys2Proof/Machine/Rdpmc.lean ====
section
/-!
DEFINITION. The meaning of RDPMC and of its LOCK-prefixed form (40_rdpmc.md, R50 to R66).
-/
namespace Sys2Proof.Machine

/-- What EDX receives (R54 to R57). -/
inductive HighPart where
  /-- The counter's bits from 32 up. -/
  | counterBits
  /-- 0: "A 32-bit result is returned in EAX and EDX is set to 0". -/
  | zero
  /-- The special-purpose read, as `cfg.EDX_SPECIAL` says. -/
  | special
deriving DecidableEq, Repr

/-- What a valid selector selects: the counter, and what EDX receives. -/
structure Selection where
  counter : Counter
  high : HighPart
deriving DecidableEq, Repr

/-- The privilege gate (R52): (CR4.PCE = 1) or (CPL = 0) or (CR0.PE = 0). -/
def gateOpen (s : State) : Bool :=
  s.cr4Pce || s.cpl == 0 || !s.cr0Pe

/-- The selector part of the `coreI7` body (R54). -/
def selectCoreI7 (k : Cfg) (c : Word32) : Option Selection :=
  if ecxType c = true ∧ ecxIndex30 c < k.nFixed then
    some ⟨.fixed (ecxIndex30 c), .counterBits⟩
  else if ecxType c = false ∧ ecxIndex30 c < k.nGp then
    some ⟨.pmc (ecxIndex30 c), .counterBits⟩
  else none

/-- The selector part of the `core2` body (R55). -/
def selectCore2 (k : Cfg) (c : Word32) : Option Selection :=
  if ecxType c = true ∧ ecxIndex30 c < k.nFixed then
    some ⟨.fixed (ecxIndex30 c), .counterBits⟩
  else if ecxType c = false ∧ ecxIndex30 c < k.nGp then
    some ⟨.pmc (ecxIndex30 c), .counterBits⟩
  else if ecxType c = false ∧ k.isSpecial (ecxIndex30 c) = true then
    some ⟨.pmc (ecxIndex30 c), .special⟩
  else none

/-- The selector part of the `p6` body (R56): all 32 bits of c are compared, and c is 0 or 1, N_GP being 2
(R3, R22). -/
def selectP6 (k : Cfg) (c : Word32) : Option Selection :=
  if c.toNat < k.nGp then some ⟨.pmc c.toNat, .counterBits⟩ else none

/-- The selector part of the `family15` body (R57): the first test is `idx <= 17`, N_GP being 18 (R3,
R22). Intel Atom, were it of this variant (D12), has N_GP = 2: log entry 27. -/
def selectFamily15 (k : Cfg) (c : Word32) : Option Selection :=
  if ecxIndex31 c < k.nGp then
    some ⟨.pmc (ecxIndex31 c), if ecxFast c then .zero else .counterBits⟩
  else if k.l3Ctrs = true ∧ 18 ≤ ecxIndex31 c ∧ ecxIndex31 c ≤ 25 then
    some ⟨.pmc (ecxIndex31 c), .zero⟩
  else none

/-- The body that `cfg.variant` selects (R53). -/
def selectCounter (k : Cfg) (c : Word32) : Option Selection :=
  match k.variant with
  | .coreI7 => selectCoreI7 k c
  | .core2 => selectCore2 k c
  | .p6 => selectP6 k c
  | .family15 => selectFamily15 k c

/-- ECX[31] = 1 refused by `cfg.ECX31_POLICY`, on `coreI7` and `core2` only (R63, D4); under `either`
the draw decides. -/
def ecx31Rejects (k : Cfg) (draw : Nat) (c : Word32) : Bool :=
  match k.variant with
  | .coreI7 | .core2 =>
    c.getLsbD 31 &&
      (match k.ecx31Policy with
       | .ignore => false
       | .fault => true
       | .either => Config.ecx31Faults draw)
  | .p6 | .family15 => false

/-- The counter that ECX selects in this state, if any (R53, R63). -/
def selection (s : State) : Option Selection :=
  if ecx31Rejects s.cfg s.draws s.ecx then none else selectCounter s.cfg s.ecx

/-- `edx_special()` (R55): what a special-purpose read gives EDX. -/
def edxSpecial (k : Cfg) (draw : Nat) : Option Word32 :=
  match k.edxSpecial with
  | .any => some (Config.specialEdx draw)
  | .unchanged => none
  | .zero => some 0#32

/-- `hi_opt` for a sample `v` (R54 to R57). -/
def highOf (k : Cfg) (draw : Nat) {w : Nat} (v : BitVec w) : HighPart → Option Word32
  | .counterBits => some (highHalf v)
  | .zero => some 0#32
  | .special => edxSpecial k draw

/-- Write-back and completion (R58, R60, R61): both halves are cut from one sample (R59). -/
def complete (s : State) (sel : Selection) : State :=
  let v := ctrRead s sel.counter
  ((((s.writeEax (lowHalf v)).writeEdxOpt (highOf s.cfg s.draws v sel.high)).rdpmcFlags).advancePc
    (instrLength .rdpmc)).nextDraw

/-- The steps of rule R51: LOCK, gate, body, write-back, pc. -/
def rdpmcSteps (lock : Bool) (s : State) : Result :=
  if lock then raise .ud s
  else if gateOpen s then
    match selection s with
    | some sel => .next (complete s sel)
    | none => raise .gp0 s
  else raise .gp0 s

/-- RDPMC (R50). -/
def execRdpmc (s : State) : Result := rdpmcSteps false s

/-- The LOCK-prefixed form: #UD in every mode, whatever the state holds (R43, R71, R77). -/
def execLockRdpmc (s : State) : Result := rdpmcSteps true s

end Sys2Proof.Machine
end

