-- ==== Sys2Proof/Machine/Dispatch.lean ====
section
/-!
DEFINITION. The dispatch: one arm per constructor of Instr.
-/
namespace Sys2Proof.Machine

/-- The meaning of an instruction. -/
def exec (i : Instr) (s : State) : Host.Outcome State Fault Refusal :=
  match i with
  | .rdpmc => Sys2Proof.Machine.execRdpmc s
  | .lockRdpmc => Sys2Proof.Machine.execLockRdpmc s

end Sys2Proof.Machine
end

