-- ==== Sys2Proof/Machine/Fetch.lean ====
section
/-!
DEFINITION. Fetching an instruction (R31, R48), and what a step answers to bytes that are none.
-/
namespace Sys2Proof.Machine

/-- The bytes of program text at the pc, as many as the longest admitted form has (R48). -/
def State.fetched (s : State) : List Byte := fetchBytes s.mem s.pc maxInstrLength

/-- The outcome where the decoder gives no instruction (R44, R46). -/
def undecoded (s : State) : DecodeError → Result
  | .truncated => .fault (.noProgramText (s.pc + s.fetched.length))
  | .otherPrefix b => .refused (.otherPrefix b)
  | .unlisted b => .refused (.unlistedEncoding b)

/-- The state with a word of the opcode table placed at the pc. -/
def placeTableWord (s : State) (nbits w : Nat) : State :=
  { s with mem := s.mem.writeBytes s.pc (tableBytes nbits w) }

end Sys2Proof.Machine
end

