-- ==== Sys2Proof/Machine/Step.lean ====
section
/-!
DEFINITION. One step: fetch at the pc, decode, execute (R31, R48, R51). The meaning itself advances
the pc (R61); the step adds nothing around it.
-/
namespace Sys2Proof.Machine

/-- One step of the machine. -/
def step (s : State) : Host.Outcome State Fault Refusal :=
  match decode s.fetched with
  | .ok (i, _) => exec i s
  | .error e => undecoded s e

/-- `s` with the instruction of a table word stored where `step` fetches it. -/
def State.withFetchWord (s : State) (nbits w : Nat) : State := placeTableWord s nbits w

end Sys2Proof.Machine
end

