-- ==== Sys2Proof/WellFormed.lean ====
section
/-!
DEFINITION. Well-formed instructions and legal configurations. An instruction has no operand field
that could be out of range (R40), so every one is well formed; what can be ill formed is the
configuration record, whose legal values rule R3 and the parameters of 92_eei_decisions.md give.
-/
namespace Sys2Proof

/-- Both forms have all their bits fixed (R40, R43): nothing can be out of range. -/
def Instr.wf : Instr → Bool
  | .rdpmc => true
  | .lockRdpmc => true

/-- The high part `v[MSCB:32]` has at least one bit and fits the 32 bits of EDX (`zext_32`, R58).
DEDUCED (log entry 6) from the slices of R6 and R58; the source's own values are 39 and 47. -/
def Cfg.mscbFits (k : Cfg) : Bool :=
  decide (32 ≤ k.mscb) && decide (k.mscb ≤ 63)

/-- A fixed index is a value of ECX[29:0]: `0 <= N_FIXED <= 2^30` (D11). -/
def Cfg.fixedFits (k : Cfg) : Bool :=
  decide (k.nFixed ≤ 2 ^ 30)

/-- Special-purpose indices exist in the `core2` variant only, as 2 to 9 (R3, R55). -/
def Cfg.specialLegal (k : Cfg) : Bool :=
  k.special == none || (k.variant == .core2 && k.special == some ⟨2, 9⟩)

/-- Indices 18 to 25 exist in the `family15` variant only (R3, R57). -/
def Cfg.l3Legal (k : Cfg) : Bool :=
  !k.l3Ctrs || k.variant == .family15

/-- The numbers rules R3 and R22 fix for each variant. N_FIXED is OPEN on `coreI7` (D11). -/
def Cfg.hasFixedNumbers (k : Cfg) : Bool :=
  match k.variant with
  | .coreI7 => k.nGp == 4 && k.mscb == 47
  | .core2 => k.nGp == 2 && k.mscb == 39 && k.nFixed == 3
  | .p6 => k.nGp == 2 && k.mscb == 39 && k.nFixed == 0
  | .family15 => k.nGp == 18 && k.mscb == 39 && k.nFixed == 0

/-- Intel Atom's numbers (D12, R22): two general-purpose counters, no special-purpose and no L3
counter; its variant (any of the four, `family15` too), MSCB and N_FIXED are OPEN. A configuration
does not name its processor, so these numbers are legal for it whatever its variant is (log entry
20). -/
def Cfg.hasAtomNumbers (k : Cfg) : Bool :=
  k.nGp == 2 && k.special == none && !k.l3Ctrs

/-- The numbers are those of a processor of R22. -/
def Cfg.countsLegal (k : Cfg) : Bool :=
  k.hasFixedNumbers || k.hasAtomNumbers

/-- The configuration has the legal values of R3. -/
def Cfg.wf (k : Cfg) : Bool :=
  k.mscbFits && k.fixedFits && k.specialLegal && k.l3Legal && k.countsLegal

end Sys2Proof
end

