-- ==== Sys2Proof/Safety.lean ====
section
/-!
DEFINITION. What counts as a legal state and a safe run, and the words the statements use: the gate,
the selector and the result said in the terms of the rules (numbers and named fields), without the
model's own operations.
-/
namespace Sys2Proof.Machine

/-- The invariants of rule R19: RealAddress if and only if CR0.PE = 0; Virtual8086 implies CPL = 3
(R18); Compatibility and Mode64 only where the processor has them. -/
abbrev State.ModesLegal (s : State) : Prop :=
  (s.mode = .realAddress ↔ s.cr0Pe = false) ∧
  (s.mode = .virtual8086 → s.cpl = 3) ∧
  (s.mode = .compatibility ∨ s.mode = .mode64 → s.cfg.has64BitMode = true)

/-- A legal state: the modes of R19, a configuration of R3, program text in canonical form. "A launch
state that violates an invariant is outside every claim" (D16). -/
abbrev State.Inv (s : State) : Prop :=
  s.ModesLegal ∧ s.cfg.wf = true ∧ s.mem.wf = true

/-- A safe step: the machine goes on, or raises one of the two exceptions of R70 and R71. A fetch
outside the program text and bytes that are no instruction are not safe. -/
abbrev SafeOutcome : Result → Prop
  | .next _ => True
  | .fault (.gp0 _) => True
  | .fault (.ud _) => True
  | .fault (.noProgramText _) => False
  | .refused _ => False

/-- The gate of R52 in the rule's own words. -/
abbrev State.Allowed (s : State) : Prop :=
  s.cr4Pce = true ∨ s.cpl = 0 ∨ s.cr0Pe = false

/-- c, the value of ECX, as an unsigned number (R4, R10). -/
def State.c (s : State) : Nat := s.rcx.toNat % 2 ^ 32

/-- c[30] as a number (R45). -/
def State.c30 (s : State) : Nat := s.c / 2 ^ 30 % 2

/-- c[31] as a number (R45). -/
def State.c31 (s : State) : Nat := s.c / 2 ^ 31

/-- c[29:0] as a number (R45). -/
def State.c29to0 (s : State) : Nat := s.c % 2 ^ 30

/-- c[30:0] as a number (R45). -/
def State.c30to0 (s : State) : Nat := s.c % 2 ^ 31

/-- c[31] does not come under a policy that may refuse it (R63): it is clear, or the policy is `ignore`,
or the variant is one on which the policy plays no part (`p6`, `family15`). -/
abbrev State.Ecx31Plain (s : State) : Prop :=
  s.c31 = 0 ∨ s.cfg.ecx31Policy = .ignore ∨ s.cfg.variant = .p6 ∨ s.cfg.variant = .family15

/-- The sample of counter `c`, of width `w`, that an execution in `s` observes, as a number (R59). -/
def State.sample (s : State) (c : Counter) (w : Nat) : Nat := (Config.ctrSample s.draws c w).toNat

/-- EAX as a number. -/
def State.eaxNat (s : State) : Nat := s.rax.toNat % 2 ^ 32

/-- EDX as a number. -/
def State.edxNat (s : State) : Nat := s.rdx.toNat % 2 ^ 32

/-- The state is `s` but for RAX, RDX, the pc and the model's own count of draws. What becomes of the
last two is decision D6 and the model's, and has a statement of its own. -/
abbrev State.DiffersByRead (s t : State) : Prop :=
  t = { s with rax := t.rax, rdx := t.rdx, pc := t.pc, draws := t.draws }

/-- RDPMC completes in `s` with the whole sample of counter `c` of width `w` in EDX:EAX: EAX holds its
bits 31:0, EDX the bits from 32 up. -/
def ReadsFull (s : State) (c : Counter) (w : Nat) : Prop :=
  ∃ t, exec .rdpmc s = .next t ∧ s.DiffersByRead t ∧
    t.eaxNat = s.sample c w % 2 ^ 32 ∧ t.edxNat = s.sample c w / 2 ^ 32

/-- RDPMC completes in `s` with bits 31:0 of the sample of counter `c` of width `w` in EAX and 0 in
EDX. -/
def ReadsLow (s : State) (c : Counter) (w : Nat) : Prop :=
  ∃ t, exec .rdpmc s = .next t ∧ s.DiffersByRead t ∧
    t.eaxNat = s.sample c w % 2 ^ 32 ∧ t.edxNat = 0

/-- RDPMC completes in `s` with the 32-bit sample of special-purpose counter `c` in EAX and in EDX what
`cfg.EDX_SPECIAL` says: the draw, RDX as it was, or 0 (R55). -/
def ReadsSpecial (s : State) (c : Counter) : Prop :=
  ∃ t, exec .rdpmc s = .next t ∧ s.DiffersByRead t ∧ t.eaxNat = s.sample c 32 ∧
    (match s.cfg.edxSpecial with
     | .any => t.edxNat = (Config.specialEdx s.draws).toNat
     | .unchanged => t.rdx = s.rdx
     | .zero => t.edxNat = 0)

/-- RDPMC raises #GP(0) in `s`, with the state unchanged. -/
def RaisesGp (s : State) : Prop := exec .rdpmc s = .fault (.gp0 s)

/-- ECX selects a counter that exists on the processor (R54 to R57), said on numbers. On `p6` and
`family15` too the bound is N_GP (R3, R22; log entry 27). -/
def State.Selects (s : State) : Prop :=
  match s.cfg.variant with
  | .coreI7 =>
    (s.c30 = 1 ∧ s.c29to0 < s.cfg.nFixed) ∨ (s.c30 = 0 ∧ s.c29to0 < s.cfg.nGp)
  | .core2 =>
    (s.c30 = 1 ∧ s.c29to0 < s.cfg.nFixed) ∨ (s.c30 = 0 ∧ s.c29to0 < s.cfg.nGp) ∨
      (s.c30 = 0 ∧ ∃ r, s.cfg.special = some r ∧ r.lo ≤ s.c29to0 ∧ s.c29to0 ≤ r.hi)
  | .p6 => s.c < s.cfg.nGp
  | .family15 => s.c30to0 < s.cfg.nGp ∨ (s.cfg.l3Ctrs = true ∧ 18 ≤ s.c30to0 ∧ s.c30to0 ≤ 25)

/-- The read is of a special-purpose counter (R55): the `core2` variant, type 0, an index past the
general-purpose ones. (Of a selector that is valid.) -/
abbrev State.SpecialRead (s : State) : Prop :=
  s.cfg.variant = .core2 ∧ s.c30 = 0 ∧ s.cfg.nGp ≤ s.c29to0

/-- ECX[31] = 1 makes this execution fault, by `cfg.ECX31_POLICY` (R63, D4). -/
def State.Ecx31Faults (s : State) : Prop :=
  (s.cfg.variant = .coreI7 ∨ s.cfg.variant = .core2) ∧ s.c31 = 1 ∧
    (s.cfg.ecx31Policy = .fault ∨
      (s.cfg.ecx31Policy = .either ∧ Config.ecx31Faults s.draws = true))

/-- The selector is valid in this execution: it selects a counter and bit 31 does not make it fault. -/
def State.SelectorValid (s : State) : Prop := s.Selects ∧ ¬ s.Ecx31Faults

/-- The outcome with its next state changed by `g`, its carried pre-state too. -/
def mapOutcome (g : State → State) : Result → Result
  | .next t => .next (g t)
  | .fault (.gp0 p) => .fault (.gp0 (g p))
  | .fault (.ud p) => .fault (.ud (g p))
  | .fault (.noProgramText a) => .fault (.noProgramText a)
  | .refused r => .refused r

/-- The bytes at the pc and after it are exactly readable as `bs`. -/
def State.TextAt (s : State) (a : Nat) (bs : List Byte) : Prop :=
  ∀ k (h : k < bs.length), s.mem.read (a + k) = some bs[k]

end Sys2Proof.Machine
end

