-- ==== Sys2Proof/Certificates/Slice0/Obligations.lean ====
section
/-!
DEFINITION. The statements for the provers, from the numbered rules of spec/. Each docstring names the
rules it rests on. Where a clause rests on the model's choice or on a decision of the spec, the
docstring names the log entry or the decision, and the statement's basis is 'derived'.
-/
open Sys2Proof Sys2Proof.Machine

/-! ### Encoding, fetch and step -/

/-- Words of the opcode table, written out (R40, R43; LOCK's byte: log entry 7; the numbering of the
table's words: log entry 9). -/
def Obligations.SpecWordsDecode : Prop :=
  decode [0x0F#8, 0x33#8] = .ok (.rdpmc, []) ∧
  decode [0x0F#8, 0x33#8, 0x00#8] = .ok (.rdpmc, [0x00#8]) ∧
  decode [0xF0#8, 0x0F#8, 0x33#8] = .ok (.lockRdpmc, []) ∧
  decode [0x66#8, 0x0F#8, 0x33#8] = .error (.otherPrefix 0x66#8) ∧
  decode [0x0F#8, 0xA2#8] = .error (.unlisted 0xA2#8) ∧
  decodeTableWord 16 0x0F33 = some .rdpmc ∧
  decodeTableWord 24 0xF00F33 = some .lockRdpmc

/-- Decode and encode agree in both directions, over all instructions and all bytes after them
(R40, R43, R48). -/
def Obligations.DecodeEncodeAgree : Prop :=
  (∀ (i : Instr) (rest : List Byte), i.wf = true → decode (encode i ++ rest) = .ok (i, rest)) ∧
  (∀ (bs : List Byte) (i : Instr) (rest : List Byte),
    decode bs = .ok (i, rest) → bs = encode i ++ rest ∧ i.wf = true)

/-- RDPMC has exactly one encoding, two bytes long, all 16 bits fixed (R40). -/
def Obligations.RdpmcHasOneEncoding : Prop :=
  (∀ bs rest : List Byte,
    decode bs = .ok (.rdpmc, rest) ↔ bs = 0x0F#8 :: 0x33#8 :: rest) ∧
  instrLength .rdpmc = 2

/-- Where the bytes at the pc decode to a well-formed instruction, the step is that instruction's
execution, and adds nothing around it (R31, R48, R51). -/
def Obligations.StepRunsDecoded : Prop :=
  ∀ (s : State) (i : Instr) (rest : List Byte),
    decode s.fetched = .ok (i, rest) → i.wf = true → step s = exec i s

/-- The two admitted forms as they stand in the program text, whatever follows them and in every mode
(R31, R48). -/
def Obligations.StepFetchesAdmittedForms : Prop :=
  ∀ s : State,
    (s.TextAt s.pc [0x0F#8, 0x33#8] → step s = exec .rdpmc s) ∧
    (s.TextAt s.pc [0xF0#8, 0x0F#8, 0x33#8] → step s = exec .lockRdpmc s)

/-- Three bytes of program text that begin with neither admitted form are refused, every other
prefixed form among them (R44, R46; decision D7). -/
def Obligations.OtherFormsRefused : Prop :=
  ∀ (s : State) (b0 b1 b2 : Byte), s.TextAt s.pc [b0, b1, b2] →
    ¬ (b0 = 0x0F#8 ∧ b1 = 0x33#8) → ¬ (b0 = 0xF0#8 ∧ b1 = 0x0F#8 ∧ b2 = 0x33#8) →
    ∃ r, step s = .refused r

/-- A step faults for want of program text only at an address without a byte, at most two after the
pc; and it does so when the pc's own byte is missing (R31, D20; log entry 10). -/
def Obligations.MissingTextFaults : Prop :=
  (∀ (s : State) (a : Nat), step s = .fault (.noProgramText a) →
    s.mem.read a = none ∧ s.pc ≤ a ∧ a ≤ s.pc + 2) ∧
  (∀ s : State, s.mem.read s.pc = none → step s = .fault (.noProgramText s.pc))

/-- A word of the opcode table placed at the pc of any state is what the next step runs. The forms are
R40's and R43's and the fetch R31's; how text is placed, with zero bytes up to the longest form, is the
model's choice (log entry 25), and so is the numbering of the table's words (log entry 9). -/
def Obligations.PlacedWordRuns : Prop :=
  ∀ s : State,
    step (s.withFetchWord 16 0x0F33) = exec .rdpmc (s.withFetchWord 16 0x0F33) ∧
    step (s.withFetchWord 24 0xF00F33) = exec .lockRdpmc (s.withFetchWord 24 0xF00F33)

/-- Program texts in canonical form that read alike at every address are the same data (R6's
`MemRead`; the model's form of memory, log entry 10). -/
def Obligations.CanonicalTextsAreEqual : Prop :=
  ∀ m n : Memory, m.wf = true → n.wf = true → (∀ a, m.read a = n.read a) → m = n

/-- A step over either admitted form is safe: it goes on or raises #GP(0) or #UD (R70, R71, R79). -/
def Obligations.AdmittedFormsAreSafe : Prop :=
  ∀ s : State,
    s.TextAt s.pc [0x0F#8, 0x33#8] ∨ s.TextAt s.pc [0xF0#8, 0x0F#8, 0x33#8] →
    SafeOutcome (step s)

/-! ### The whole machine -/

/-- The state after reset: CR0.PE, CR4.PCE, CPL and the mode at the values R26 lists from general
knowledge; the other values are the model's (log entries 1 and 11). -/
def Obligations.ResetValues : Prop :=
  State.reset.cr0Pe = false ∧ State.reset.cr4Pce = false ∧ State.reset.cpl = 0 ∧
  State.reset.mode = .realAddress ∧ State.reset.mem = [] ∧ State.reset.pc = 0xFFFFFFF0 ∧
  State.reset.eaxNat = 0 ∧ State.reset.c = 0 ∧ State.reset.flags = 2#64

/-- The state after reset meets the invariant of R19 (decision D16) and R3. The spec models no reset state
(D15), and R26 gives CR0.PE and the mode from general knowledge only: the reset state is the model's
choice, its values log entry 1, its processor log entry 11, its empty program text log entries 10
and 25. -/
def Obligations.InvariantAtReset : Prop := State.reset.Inv

/-- Every step keeps the invariant of R19 and R3, from every state that meets it: the modes stay
legal, the configuration stays that of the same processor, the program text stays canonical. -/
def Obligations.StepKeepsInvariant : Prop :=
  ∀ s t : State, s.Inv → step s = .next t → t.Inv ∧ t.cfg = s.cfg

/-- The frame of every instruction that answers a next state (only RDPMC does): ECX and the rest of
RCX, every other general register, the flags, CR0, CR4, CPL, the mode, the processor and every byte
of memory are as before (R14, R15, R30, R61). -/
def Obligations.FrameOfExec : Prop :=
  ∀ (i : Instr) (s t : State), exec i s = .next t →
    i = .rdpmc ∧ t.rcx = s.rcx ∧ t.otherRegs = s.otherRegs ∧ t.flags = s.flags ∧
    t.cr4Pce = s.cr4Pce ∧ t.cr0Pe = s.cr0Pe ∧ t.cpl = s.cpl ∧ t.mode = s.mode ∧
    t.cfg = s.cfg ∧ (∀ a, t.mem.read a = s.mem.read a) ∧ t.mem = s.mem

/-- Completion advances the pc by the 2 bytes of the instruction (R13, R61; decision D6) and takes one
draw (R59; the count of draws is the model's, log entry 2). -/
def Obligations.CompletionAdvancesPc : Prop :=
  ∀ s t : State, exec .rdpmc s = .next t → t.pc = s.pc + 2 ∧ t.draws = s.draws + 1

/-- An exception writes nothing: the fault carries the state before it, whose pc still addresses the
instruction, first prefix byte included (R62, R78, R79; decisions D6, D9). -/
def Obligations.FaultsCarryPreState : Prop :=
  ∀ (i : Instr) (s : State) (f : Fault), exec i s = .fault f →
    ((i = .rdpmc ∧ f = .gp0 s) ∨ (i = .lockRdpmc ∧ f = .ud s)) ∧ f.savedPc = some s.pc

/-- What the two exceptions report: #GP(0) the error code 0, not delivered in real-address mode; #UD
none (R70, R71, R73, R78; decision D17). -/
def Obligations.ExceptionErrorCodes : Prop :=
  Exception.gp0.errorCode = some 0 ∧ Exception.ud.errorCode = none ∧
  (∀ m, Exception.gp0.deliveredErrorCode m = if m = .realAddress then none else some 0) ∧
  (∀ m, Exception.ud.deliveredErrorCode m = none)

/-! ### The gate and the exceptions -/

/-- The privilege gate: with a valid selector RDPMC completes if and only if it is allowed; when it is
not, it raises #GP(0), whatever ECX holds, and writes nothing (R52). -/
def Obligations.PrivilegeGate : Prop :=
  (∀ s : State, s.SelectorValid →
    ((∃ t, exec .rdpmc s = .next t) ↔ (s.cr4Pce = true ∨ s.cpl = 0 ∨ s.cr0Pe = false))) ∧
  (∀ s : State, ¬ (s.cr4Pce = true ∨ s.cpl = 0 ∨ s.cr0Pe = false) →
    exec .rdpmc s = .fault (.gp0 s))

/-- RDPMC completes exactly when it is allowed and its selector is valid, and otherwise raises #GP(0);
it is never refused (R51, R52, R63; the policies on ECX[31] are decision D4). -/
def Obligations.RdpmcCompletesIff : Prop :=
  ∀ s : State,
    (s.Allowed ∧ s.SelectorValid → ∃ t, exec .rdpmc s = .next t) ∧
    (¬ (s.Allowed ∧ s.SelectorValid) → exec .rdpmc s = .fault (.gp0 s))

/-- #GP(0) is raised in exactly two situations: the gate fails, or it passes and ECX selects no counter
(R70), with error code 0. On a Core variant ECX[31] is clear here, or not examined; the other cases,
which are Core states too, are Ecx31Policies. -/
def Obligations.GpInExactlyTwoSituations : Prop :=
  ∀ s : State, s.Ecx31Plain →
    (∀ f : Fault, exec .rdpmc s = .fault f ↔
      f = .gp0 s ∧
        ((s.cr0Pe = true ∧ s.cr4Pce = false ∧ (s.cpl = 1 ∨ s.cpl = 2 ∨ s.cpl = 3)) ∨
          (s.Allowed ∧ ¬ s.Selects))) ∧
      Exception.gp0.errorCode = some 0

/-- #UD is raised in exactly one situation: the LOCK prefix, in any mode, at any privilege level,
whatever CR4.PCE and ECX hold (R71). -/
def Obligations.UdExactlyForLock : Prop :=
  (∀ s : State, exec .lockRdpmc s = .fault (.ud s)) ∧
  (∀ s p : State, exec .rdpmc s ≠ .fault (.ud p)) ∧
  Exception.ud.errorCode = none

/-- The locked form in the program text raises #UD even where the unlocked form would raise #GP(0):
LOCK is tested first (R51, R77; decision D8). -/
def Obligations.LockTestedFirst : Prop :=
  ∀ s : State, s.TextAt s.pc [0xF0#8, 0x0F#8, 0x33#8] →
    step s = .fault (.ud s) ∧
    (¬ (s.Allowed ∧ s.SelectorValid) → exec .rdpmc s = .fault (.gp0 s))

/-- The exceptions of protected and compatibility mode (R72, R75): #GP(0) if CPL is not 0 and PCE is
clear, or if the selector is invalid; #UD if LOCK. CR0.PE = 1 covers these modes (R17). -/
def Obligations.ProtectedModeExceptions : Prop :=
  ∀ s : State, s.mode = .protectedMode ∨ s.mode = .compatibility → s.cr0Pe = true → s.Ecx31Plain →
    (exec .rdpmc s = .fault (.gp0 s) ↔ (s.cpl ≠ 0 ∧ s.cr4Pce = false) ∨ ¬ s.Selects) ∧
    exec .lockRdpmc s = .fault (.ud s)

/-- The exceptions of the other modes (R73, R74, R76): in real-address mode the gate is always open; in
virtual-8086 mode a clear PCE closes it whatever the CPL is said to be (its CPL is 3: decision D16);
64-bit mode has the exceptions of protected mode. -/
def Obligations.OtherModesExceptions : Prop :=
  ∀ s : State, s.ModesLegal → s.Ecx31Plain →
    (s.mode = .realAddress → (exec .rdpmc s = .fault (.gp0 s) ↔ ¬ s.Selects)) ∧
    (s.mode = .virtual8086 →
      (exec .rdpmc s = .fault (.gp0 s) ↔ s.cr4Pce = false ∨ ¬ s.Selects)) ∧
    (s.mode = .mode64 →
      (exec .rdpmc s = .fault (.gp0 s) ↔ (s.cpl ≠ 0 ∧ s.cr4Pce = false) ∨ ¬ s.Selects))

/-! ### The four bodies: results -/

/-- The `coreI7` body whole (R54): both counter types, 48-bit samples, 4 general-purpose counters, and
#GP(0) otherwise. ECX[31] is clear or not examined. The value of EDX rests on decision D3, and the fixed
branch (bits 31:0, index ECX[29:0]) on the readings C1 and C2 of the spec: log entry 18. -/
def Obligations.CoreI7Body : Prop :=
  ∀ s : State, s.cfg.variant = .coreI7 → s.cfg.mscb = 47 → s.cfg.nGp = 4 → s.Ecx31Plain →
    (¬ s.Allowed → RaisesGp s) ∧
    (s.Allowed →
      if s.c30 = 1 ∧ s.c29to0 < s.cfg.nFixed then ReadsFull s (.fixed s.c29to0) 48
      else if s.c30 = 0 ∧ s.c29to0 < 4 then ReadsFull s (.pmc s.c29to0) 48
      else RaisesGp s)

/-- The `core2` body whole (R55): 40-bit fixed and general-purpose counters, the eight 32-bit
special-purpose counters where the processor has them, and #GP(0) otherwise. EDX after a
special-purpose read is as EDX_SPECIAL says (decision D5, log entry 3). ECX[31] is clear or not
examined. The value of EDX after the 40-bit reads rests on decision D3, and the fixed branch on the
readings C1 and C2 of the spec: log entry 18. -/
def Obligations.Core2Body : Prop :=
  ∀ s : State, s.cfg.variant = .core2 → s.cfg.mscb = 39 → s.cfg.nGp = 2 → s.cfg.nFixed = 3 →
    (s.cfg.special = none ∨ s.cfg.special = some ⟨2, 9⟩) → s.Ecx31Plain →
    (¬ s.Allowed → RaisesGp s) ∧
    (s.Allowed →
      if s.c30 = 1 ∧ s.c29to0 < 3 then ReadsFull s (.fixed s.c29to0) 40
      else if s.c30 = 0 ∧ s.c29to0 < 2 then ReadsFull s (.pmc s.c29to0) 40
      else if s.cfg.special = some ⟨2, 9⟩ ∧ s.c30 = 0 ∧ 2 ≤ s.c29to0 ∧ s.c29to0 ≤ 9 then
        ReadsSpecial s (.pmc s.c29to0)
      else RaisesGp s)

/-- The `p6` body whole (R56): ECX is 0 or 1, all 32 bits compared; a 40-bit sample; #GP(0)
otherwise. MSCB and N_GP have R3's values; for Intel Atom's see OlderBodiesAtAnyWidth. The value of
EDX rests on decision D3 (log entry 18), its 8 high bits on decision D22 (log entry 27). -/
def Obligations.P6Body : Prop :=
  ∀ s : State, s.cfg.variant = .p6 → s.cfg.mscb = 39 → s.cfg.nGp = 2 →
    (¬ s.Allowed → RaisesGp s) ∧
    (s.Allowed →
      if s.c = 0 ∨ s.c = 1 then ReadsFull s (.pmc s.c) 40 else RaisesGp s)

/-- The `family15` body whole (R57): slow and fast reads of the first 18 counters, 32-bit reads of the
L3 counters whatever ECX[31] is (decision D18, log entry 22), #GP(0) otherwise. MSCB and N_GP have R3's
values; for Intel Atom's see OlderBodiesAtAnyWidth. The value of EDX after a slow read rests on
decision D3 (log entry 18), its 8 high bits on decision D22 (log entry 27). -/
def Obligations.Family15Body : Prop :=
  ∀ s : State, s.cfg.variant = .family15 → s.cfg.mscb = 39 → s.cfg.nGp = 18 →
    (¬ s.Allowed → RaisesGp s) ∧
    (s.Allowed →
      if s.c30to0 ≤ 17 then
        (if s.c31 = 0 then ReadsFull s (.pmc s.c30to0) 40 else ReadsLow s (.pmc s.c30to0) 40)
      else if s.cfg.l3Ctrs = true ∧ 18 ≤ s.c30to0 ∧ s.c30to0 ≤ 25 then
        ReadsLow s (.pmc s.c30to0) 32
      else RaisesGp s)

/-- The `coreI7` and `core2` bodies at every legal counter width and count, as Intel Atom leaves them
OPEN (R22, R24, R53, R54, R55, R58; decision D12, log entry 20): MSCB + 1 bits, N_FIXED and N_GP
counters. A legal MSCB lies from 32 to 63 (log entry 6); the value of EDX rests on decision D3, and the
fixed branch on the readings C1 and C2 of the spec: log entry 18. -/
def Obligations.CoreBodiesAtAnyWidth : Prop :=
  ∀ s : State, s.cfg.variant = .coreI7 ∨ s.cfg.variant = .core2 → s.cfg.wf = true → s.Ecx31Plain →
    s.Allowed →
    (s.c30 = 1 → s.c29to0 < s.cfg.nFixed →
      ReadsFull s (.fixed s.c29to0) (s.cfg.mscb + 1)) ∧
    (s.c30 = 0 → s.c29to0 < s.cfg.nGp → ReadsFull s (.pmc s.c29to0) (s.cfg.mscb + 1))

/-- The `p6` and `family15` bodies whole at every legal counter width and count, as Intel Atom leaves them
OPEN (R22, R56, R57, R58; decision D12, log entry 20): N_GP counters of MSCB + 1 bits, as these bodies
too consult N_GP and MSCB in the model (log entry 27). The L3 counters' indices start at 18, past every
legal N_GP. A legal MSCB lies from 32 to 63 (log entry 6); the value of EDX rests on decision D3 (log
entry 18), the L3 counters' on decision D18 (log entry 22). -/
def Obligations.OlderBodiesAtAnyWidth : Prop :=
  ∀ s : State, s.cfg.wf = true → s.Allowed →
    (s.cfg.variant = .p6 →
      if s.c < s.cfg.nGp then ReadsFull s (.pmc s.c) (s.cfg.mscb + 1) else RaisesGp s) ∧
    (s.cfg.variant = .family15 →
      if s.c30to0 < s.cfg.nGp then
        (if s.c31 = 0 then ReadsFull s (.pmc s.c30to0) (s.cfg.mscb + 1)
         else ReadsLow s (.pmc s.c30to0) (s.cfg.mscb + 1))
      else if s.cfg.l3Ctrs = true ∧ 18 ≤ s.c30to0 ∧ s.c30to0 ≤ 25 then
        ReadsLow s (.pmc s.c30to0) 32
      else RaisesGp s)

/-- Without special-purpose counters the `coreI7` and `core2` bodies are the same function of the other
fields of cfg (R53). -/
def Obligations.CoreBodiesCoincide : Prop :=
  ∀ s : State, s.cfg.variant = .coreI7 → s.cfg.special = none →
    exec .rdpmc { s with cfg := { s.cfg with variant := .core2 } } =
      mapOutcome (fun t => { t with cfg := { s.cfg with variant := .core2 } }) (exec .rdpmc s)

/-- The 64-bit value EDX:EAX after a completed read: the whole sample v where the high part is
returned, v modulo 2^32 where EDX is zeroed (R33, R58). It is a consequence of decision D3 (the bits of
EDX above the counter are 0) and of the spec's reading C1 (EAX has bits 31:0 of a fixed-function
counter): log entry 18. A legal MSCB lies from 32 to 63 (log entry 6). -/
def Obligations.EdxEaxIsTheSample : Prop :=
  ∀ (s t : State) (sel : Selection), s.cfg.wf = true → selection s = some sel →
    exec .rdpmc s = .next t →
    (sel.high = .counterBits →
      t.edxNat * 2 ^ 32 + t.eaxNat = (ctrRead s sel.counter).toNat) ∧
    (sel.high = .zero →
      t.edxNat * 2 ^ 32 + t.eaxNat = (ctrRead s sel.counter).toNat % 2 ^ 32) ∧
    (sel.high = .special → t.eaxNat = (ctrRead s sel.counter).toNat)

/-- The bits of EDX above the counter's top bit are 0 after a completed read: EDX[31:16] with a 48-bit
counter, EDX[31:8] with a 40-bit one (R54, R55, R56, R58; decisions D3 and D22, log entries 18 and 27).
A special-purpose read is left out: R55 leaves its EDX to cfg. -/
def Obligations.EdxTopBitsZero : Prop :=
  ∀ s t : State, exec .rdpmc s = .next t →
    (s.cfg.variant = .coreI7 → s.cfg.mscb = 47 → t.edxNat < 2 ^ 16) ∧
    (s.cfg.variant = .core2 → s.cfg.mscb = 39 → s.cfg.special = none → t.edxNat < 2 ^ 8) ∧
    (s.cfg.variant = .p6 ∨ s.cfg.variant = .family15 → s.cfg.mscb = 39 → t.edxNat < 2 ^ 8)

/-- Bits 63:32 of RAX and RDX (R12; decision D1): in 64-bit mode zero or the draw, as UPPER32 says, RDX
as a whole being left where the special-purpose read leaves EDX; in the other modes, where they are
not observable, as they were (the model's choice, log entry 12). -/
def Obligations.UpperHalves : Prop :=
  ∀ s t : State, exec .rdpmc s = .next t →
    (s.mode = .mode64 → s.cfg.upper32 = .zero →
      t.rax.toNat / 2 ^ 32 = 0 ∧ (t.rdx.toNat / 2 ^ 32 = 0 ∨
        (s.cfg.variant = .core2 ∧ s.cfg.edxSpecial = .unchanged ∧ t.rdx = s.rdx))) ∧
    (s.mode = .mode64 → s.cfg.upper32 = .any →
      t.rax.toNat / 2 ^ 32 = (Config.raxUpper s.draws).toNat ∧
        (t.rdx.toNat / 2 ^ 32 = (Config.rdxUpper s.draws).toNat ∨
          (s.cfg.variant = .core2 ∧ s.cfg.edxSpecial = .unchanged ∧ t.rdx = s.rdx))) ∧
    (s.mode ≠ .mode64 →
      t.rax.toNat / 2 ^ 32 = s.rax.toNat / 2 ^ 32 ∧ t.rdx.toNat / 2 ^ 32 = s.rdx.toNat / 2 ^ 32)

/-- The policies on ECX[31] = 1 on `coreI7` and `core2` (R63; decision D4): `ignore` gives the result of
the same ECX with bit 31 clear; `fault` raises #GP(0); under `either` the draw (log entry 5) decides
between just these two. -/
def Obligations.Ecx31Policies : Prop :=
  ∀ s : State, s.cfg.variant = .coreI7 ∨ s.cfg.variant = .core2 → s.c31 = 1 →
    (s.cfg.ecx31Policy = .ignore →
      exec .rdpmc s = mapOutcome (fun t => { t with rcx := s.rcx })
        (exec .rdpmc { s with rcx := s.rcx - BitVec.ofNat 64 (2 ^ 31) })) ∧
    (s.cfg.ecx31Policy = .fault → exec .rdpmc s = .fault (.gp0 s)) ∧
    (s.cfg.ecx31Policy = .either →
      if Config.ecx31Faults s.draws = true then exec .rdpmc s = .fault (.gp0 s)
      else exec .rdpmc s = mapOutcome (fun t => { t with rcx := s.rcx })
        (exec .rdpmc { s with rcx := s.rcx - BitVec.ofNat 64 (2 ^ 31) }))

/-! ### What plays no part

Each compares two executions that take the same draw (log entry 2): given the SAME counter sample, the
result is the same. None says that two reads of a counter agree. -/

/-- RDPMC writes no flag and reads no flag, on every path, the exception paths too (R60). -/
def Obligations.FlagsPlayNoPart : Prop :=
  ∀ (i : Instr) (s : State) (f : Word64),
    exec i { s with flags := f } = mapOutcome (fun t => { t with flags := f }) (exec i s) ∧
    (∀ t, exec i s = .next t → t.flags = s.flags)

/-- No general register but ECX, EAX and EDX plays a part, and no byte of memory: none is read, none is
written (R14, R30). -/
def Obligations.OtherRegistersAndMemoryPlayNoPart : Prop :=
  ∀ (i : Instr) (s : State) (regs : List Word64) (m : Memory),
    exec i { s with otherRegs := regs, mem := m } =
      mapOutcome (fun t => { t with otherRegs := regs, mem := m }) (exec i s)

/-- Two values of RCX with the same low 32 bits select the same counter or fault alike (R10, R64;
decision D2). -/
def Obligations.RcxUpperHalfPlaysNoPart : Prop :=
  ∀ (s : State) (r : Word64), r.toNat % 2 ^ 32 = s.rcx.toNat % 2 ^ 32 →
    exec .rdpmc { s with rcx := r } =
      mapOutcome (fun t => { t with rcx := r }) (exec .rdpmc s)

/-- EAX and EDX are never read (R11): with other values in RAX and RDX the same paths are taken and EAX
receives the same; EDX too, but for a special-purpose read under EDX_SPECIAL = `unchanged` (decision D5),
which leaves RDX as it is. -/
def Obligations.EaxAndEdxAreNotRead : Prop :=
  ∀ (s : State) (a d : Word64),
    (∀ t, exec .rdpmc s = .next t →
      ∃ u, exec .rdpmc { s with rax := a, rdx := d } = .next u ∧ u.eaxNat = t.eaxNat ∧
        (if s.SpecialRead ∧ s.cfg.edxSpecial = .unchanged then t.rdx = s.rdx ∧ u.rdx = d
         else u.edxNat = t.edxNat)) ∧
    (exec .rdpmc s = .fault (.gp0 s) →
      exec .rdpmc { s with rax := a, rdx := d } = .fault (.gp0 { s with rax := a, rdx := d }))

/-- The mode changes no result but the upper halves of RAX and RDX in 64-bit mode (R12, R19): between
modes other than that one the outcome is the same, and EAX and EDX are the same in all five. -/
def Obligations.ModeChangesOnlyUpperHalves : Prop :=
  ∀ (s : State) (m : Mode),
    (s.mode ≠ .mode64 → m ≠ .mode64 →
      exec .rdpmc { s with mode := m } = mapOutcome (fun t => { t with mode := m }) (exec .rdpmc s)) ∧
    (∀ t, exec .rdpmc s = .next t →
      ∃ u, exec .rdpmc { s with mode := m } = .next u ∧ u.eaxNat = t.eaxNat ∧ u.edxNat = t.edxNat)

/-- Two RDPMC in a row: after a completed one a second, whose bytes stand at the new pc, reads the same
selector with a sample of its own draw (R10, R59, R94). Nothing relates the two samples. Left out is the
one case that a free choice may refuse: policy `either` on a Core variant with ECX[31] = 1 (log entry 5;
Ecx31Policies says what that step does). That the second draw has the next number is log entry 2, the
pc 4 further decision D6 (log entry 16), and that nothing comes between the two steps, no interrupt
either, decision D21 (log entry 24). -/
def Obligations.BackToBackReads : Prop :=
  ∀ (s t : State) (sel : Selection), selection s = some sel → step s = .next t →
    t.TextAt t.pc [0x0F#8, 0x33#8] →
    (s.cfg.ecx31Policy = .either →
      s.c31 = 0 ∨ s.cfg.variant = .p6 ∨ s.cfg.variant = .family15) →
    ∃ u, step t = .next u ∧ u.rcx = s.rcx ∧ u.pc = s.pc + 4 ∧
      u.eaxNat =
        (Config.ctrSample (s.draws + 1) sel.counter (s.cfg.counterWidth sel.counter)).toNat % 2 ^ 32

/-! ### Table 4-12 -/

/-- Table 4-12 against the Operation bodies: on every processor with a row, an ECX whose bits 31 and 30
are clear completes, the gate being open, if and only if it lies in the row's "Valid PMC Index
Range" (R21, R22; decisions D11, D12). Intel Atom is covered with each of the four variants, as N_GP
rules every body (log entries 20 and 27). -/
def Obligations.TableAgreesWithBodies : Prop :=
  ∀ (p : Processor) (o : OpenParams) (r : IndexRange) (s : State), p.validPmcRange = some r →
    s.cfg = p.cfg o → s.Allowed → s.c < 2 ^ 30 →
    ((∃ t, exec .rdpmc s = .next t) ↔ r.lo ≤ s.c ∧ s.c ≤ r.hi)

/-- Table 4-12's column "General-purpose Counters" against the widths of R20: a general-purpose counter
has MSCB + 1 bits, a valid index outside that column 32 (R20, R21, R22; for Intel Atom's OPEN MSCB on
`p6` and `family15`, log entry 27). -/
def Obligations.TableWidths : Prop :=
  ∀ (p : Processor) (o : OpenParams) (v g : IndexRange) (i : Nat), p.validPmcRange = some v →
    p.generalPurposeRange = some g → v.lo ≤ i → i ≤ v.hi →
    (p.cfg o).counterWidth (.pmc i) =
      if g.lo ≤ i ∧ i ≤ g.hi then (p.cfg o).mscb + 1 else 32

/-- Every configuration of R22 has the legal values of R3, for every value of its OPEN parameters
within their bounds, Intel Atom's variant being any of the four (R3, R22; decisions D11, D12, log
entry 20; the bounds on its MSCB are log entry 6). -/
def Obligations.ProcessorsAreLegal : Prop :=
  ∀ (p : Processor) (o : OpenParams), o.nFixed ≤ 2 ^ 30 →
    (p = .atom → 32 ≤ o.mscb ∧ o.mscb ≤ 63) →
    (p.cfg o).wf = true

/-- A signature selects at most one row of Table 4-12 (R21), and the row it selects fits it. -/
def Obligations.SignaturesAreUnambiguous : Prop :=
  (∀ (p q : Processor) (family model : Nat) (l3 : Bool),
    p.fits family model l3 = true → q.fits family model l3 = true → p = q) ∧
  (∀ (p : Processor) (family model : Nat) (l3 : Bool),
    processorOf family model l3 = some p ↔ p.fits family model l3 = true)
end

