-- ==== Sys2Proof/Laws/Memory.lean ====
section
/-!
SUPPORT. Memory: a read after a write, the canonical form, and what a fetch of consecutive bytes gives.
-/
namespace Sys2Proof.Machine

@[simp] theorem Memory.read_nil (a : Nat) : Memory.read [] a = none := rfl

theorem Memory.read_cons (k : Nat) (b : Byte) (m : Memory) (a : Nat) :
    Memory.read ((k, b) :: m) a = if k = a then some b else m.read a := rfl

/-- A write is seen at its own address and nowhere else. -/
theorem Memory.read_write (m : Memory) (a a' : Nat) (v : Byte) :
    (m.write a v).read a' = if a' = a then some v else m.read a' := by
  induction m with
  | nil => simp only [Memory.write, Memory.read_cons, Memory.read_nil, eq_comm]
  | cons e m ih =>
    obtain ⟨k, b⟩ := e
    simp only [Memory.write]
    split
    · simp only [Memory.read_cons, eq_comm]
    · split <;> simp only [Memory.read_cons, ih] <;> grind

@[simp] theorem Memory.read_write_self (m : Memory) (a : Nat) (v : Byte) :
    (m.write a v).read a = some v := by
  simp [Memory.read_write]

theorem Memory.read_write_other (m : Memory) {a a' : Nat} (v : Byte) (h : a' ≠ a) :
    (m.write a v).read a' = m.read a' := by
  simp [Memory.read_write, h]

/-- Every address of a canonical memory's tail lies above its head's. -/
theorem Memory.wf_cons (k : Nat) (b : Byte) (m : Memory) :
    Memory.wf ((k, b) :: m) = true ↔ (∀ e ∈ m, k < e.1) ∧ m.wf = true := by
  induction m generalizing k b with
  | nil => simp [Memory.wf]
  | cons e m ih =>
    obtain ⟨k', b'⟩ := e
    simp only [Memory.wf, Bool.and_eq_true, decide_eq_true_eq, List.mem_cons, forall_eq_or_imp]
    constructor
    · rintro ⟨hk, hw⟩
      exact ⟨⟨hk, fun e he => lt_trans hk (((ih k' b').1 hw).1 e he)⟩, hw⟩
    · rintro ⟨⟨hk, -⟩, hw⟩
      exact ⟨hk, hw⟩

/-- The addresses listed after a write. -/
theorem Memory.mem_write (m : Memory) (a : Nat) (v : Byte) (e : Host.Cell)
    (h : e ∈ m.write a v) : e = (a, v) ∨ e ∈ m := by
  induction m with
  | nil => exact .inl (List.mem_singleton.1 h)
  | cons c m ih =>
    obtain ⟨k, b⟩ := c
    simp only [Memory.write] at h
    split at h
    · exact List.mem_cons.1 h
    · split at h <;> simp only [List.mem_cons] at h ⊢ <;> grind

/-- A write keeps the canonical form. -/
theorem Memory.wf_write (m : Memory) (a : Nat) (v : Byte) (h : m.wf = true) :
    (m.write a v).wf = true := by
  induction m with
  | nil => rfl
  | cons e m ih =>
    obtain ⟨k, b⟩ := e
    have hk := (Memory.wf_cons k b m).1 h
    simp only [Memory.write]
    split
    case isTrue hlt =>
      refine (Memory.wf_cons _ _ _).2 ⟨fun e he => ?_, h⟩
      rcases List.mem_cons.1 he with rfl | he
      · exact hlt
      · exact lt_trans hlt (hk.1 e he)
    case isFalse hlt =>
      split
      · exact (Memory.wf_cons _ _ _).2 hk
      · refine (Memory.wf_cons _ _ _).2 ⟨fun e he => ?_, ih hk.2⟩
        rcases Memory.mem_write m a v e he with rfl | he
        · simp only; omega
        · exact hk.1 e he

/-- Placing consecutive bytes keeps the canonical form. -/
theorem Memory.wf_writeBytes (bs : List Byte) (m : Memory) (a : Nat) (h : m.wf = true) :
    (m.writeBytes a bs).wf = true := by
  induction bs generalizing m a with
  | nil => exact h
  | cons b bs ih => exact ih _ _ (Memory.wf_write m a b h)

/-- Placing bytes leaves the addresses below them alone. -/
theorem Memory.read_writeBytes_below (bs : List Byte) (m : Memory) (a a' : Nat) (h : a' < a) :
    (m.writeBytes a bs).read a' = m.read a' := by
  induction bs generalizing m a with
  | nil => rfl
  | cons b bs ih =>
    simp only [Memory.writeBytes]
    rw [ih _ _ (by omega), Memory.read_write_other _ _ (by omega)]

/-- Fetching where bytes were placed gives them back. -/
theorem fetchBytes_writeBytes (bs : List Byte) (m : Memory) (a : Nat) :
    fetchBytes (m.writeBytes a bs) a bs.length = bs := by
  induction bs generalizing m a with
  | nil => rfl
  | cons b bs ih =>
    have hb : (Memory.writeBytes m a (b :: bs)).read a = some b := by
      simp only [Memory.writeBytes]
      rw [Memory.read_writeBytes_below _ _ _ _ (by omega), Memory.read_write_self]
    simp only [List.length_cons, fetchBytes, hb]
    exact congrArg _ (ih _ _)

/-- A fetch of `n + 1` bytes starts with the byte at the address, if there is one. -/
theorem fetchBytes_succ (m : Memory) (a n : Nat) :
    fetchBytes m a (n + 1) =
      (match m.read a with
       | none => []
       | some b => b :: fetchBytes m (a + 1) n) := rfl

/-- A fetch gives at most the bytes asked for. -/
theorem fetchBytes_length_le (m : Memory) (a n : Nat) : (fetchBytes m a n).length ≤ n := by
  induction n generalizing a with
  | zero => simp [fetchBytes]
  | succ n ih =>
    rw [fetchBytes_succ]
    split
    · simp
    · simpa using ih (a + 1)

/-- A fetch that falls short stopped at an address without a byte. -/
theorem read_after_short_fetch (m : Memory) (a n : Nat) (h : (fetchBytes m a n).length < n) :
    m.read (a + (fetchBytes m a n).length) = none := by
  induction n generalizing a with
  | zero => omega
  | succ n ih =>
    rw [fetchBytes_succ] at h ⊢
    split at h
    case h_1 hr => exact hr
    case h_2 b hr =>
      simp only [List.length_cons] at h ⊢
      have := ih (a + 1) (by omega)
      rwa [Nat.add_assoc, Nat.add_comm 1] at this

end Sys2Proof.Machine
end

