-- ==== Sys2Proof/Laws/State.lean ====
section
/-!
SUPPORT. One lemma per field per update of the state, so that no later proof unfolds a record update.
-/
namespace Sys2Proof.Machine

section advancePc
variable (s : State) (n : Nat)

@[simp] theorem State.advancePc_rax : (s.advancePc n).rax = s.rax := rfl
@[simp] theorem State.advancePc_rcx : (s.advancePc n).rcx = s.rcx := rfl
@[simp] theorem State.advancePc_rdx : (s.advancePc n).rdx = s.rdx := rfl
@[simp] theorem State.advancePc_otherRegs : (s.advancePc n).otherRegs = s.otherRegs := rfl
@[simp] theorem State.advancePc_pc : (s.advancePc n).pc = s.pc + n := rfl
@[simp] theorem State.advancePc_flags : (s.advancePc n).flags = s.flags := rfl
@[simp] theorem State.advancePc_cr4Pce : (s.advancePc n).cr4Pce = s.cr4Pce := rfl
@[simp] theorem State.advancePc_cr0Pe : (s.advancePc n).cr0Pe = s.cr0Pe := rfl
@[simp] theorem State.advancePc_cpl : (s.advancePc n).cpl = s.cpl := rfl
@[simp] theorem State.advancePc_mode : (s.advancePc n).mode = s.mode := rfl
@[simp] theorem State.advancePc_cfg : (s.advancePc n).cfg = s.cfg := rfl
@[simp] theorem State.advancePc_mem : (s.advancePc n).mem = s.mem := rfl
@[simp] theorem State.advancePc_draws : (s.advancePc n).draws = s.draws := rfl

end advancePc

section nextDraw
variable (s : State)

@[simp] theorem State.nextDraw_rax : (s.nextDraw).rax = s.rax := rfl
@[simp] theorem State.nextDraw_rcx : (s.nextDraw).rcx = s.rcx := rfl
@[simp] theorem State.nextDraw_rdx : (s.nextDraw).rdx = s.rdx := rfl
@[simp] theorem State.nextDraw_otherRegs : (s.nextDraw).otherRegs = s.otherRegs := rfl
@[simp] theorem State.nextDraw_pc : (s.nextDraw).pc = s.pc := rfl
@[simp] theorem State.nextDraw_flags : (s.nextDraw).flags = s.flags := rfl
@[simp] theorem State.nextDraw_cr4Pce : (s.nextDraw).cr4Pce = s.cr4Pce := rfl
@[simp] theorem State.nextDraw_cr0Pe : (s.nextDraw).cr0Pe = s.cr0Pe := rfl
@[simp] theorem State.nextDraw_cpl : (s.nextDraw).cpl = s.cpl := rfl
@[simp] theorem State.nextDraw_mode : (s.nextDraw).mode = s.mode := rfl
@[simp] theorem State.nextDraw_cfg : (s.nextDraw).cfg = s.cfg := rfl
@[simp] theorem State.nextDraw_mem : (s.nextDraw).mem = s.mem := rfl
@[simp] theorem State.nextDraw_draws : (s.nextDraw).draws = s.draws + 1 := rfl

end nextDraw

section rdpmcFlags
variable (s : State)

@[simp] theorem State.rdpmcFlags_rax : (s.rdpmcFlags).rax = s.rax := rfl
@[simp] theorem State.rdpmcFlags_rcx : (s.rdpmcFlags).rcx = s.rcx := rfl
@[simp] theorem State.rdpmcFlags_rdx : (s.rdpmcFlags).rdx = s.rdx := rfl
@[simp] theorem State.rdpmcFlags_otherRegs : (s.rdpmcFlags).otherRegs = s.otherRegs := rfl
@[simp] theorem State.rdpmcFlags_pc : (s.rdpmcFlags).pc = s.pc := rfl
@[simp] theorem State.rdpmcFlags_flags : (s.rdpmcFlags).flags = s.flags := rfl
@[simp] theorem State.rdpmcFlags_cr4Pce : (s.rdpmcFlags).cr4Pce = s.cr4Pce := rfl
@[simp] theorem State.rdpmcFlags_cr0Pe : (s.rdpmcFlags).cr0Pe = s.cr0Pe := rfl
@[simp] theorem State.rdpmcFlags_cpl : (s.rdpmcFlags).cpl = s.cpl := rfl
@[simp] theorem State.rdpmcFlags_mode : (s.rdpmcFlags).mode = s.mode := rfl
@[simp] theorem State.rdpmcFlags_cfg : (s.rdpmcFlags).cfg = s.cfg := rfl
@[simp] theorem State.rdpmcFlags_mem : (s.rdpmcFlags).mem = s.mem := rfl
@[simp] theorem State.rdpmcFlags_draws : (s.rdpmcFlags).draws = s.draws := rfl

end rdpmcFlags

section writeEax
variable (s : State) (v : Word32)

@[simp] theorem State.writeEax_rax : (s.writeEax v).rax =
    s.upperAfter s.rax (Config.raxUpper s.draws) ++ v := rfl
@[simp] theorem State.writeEax_rcx : (s.writeEax v).rcx = s.rcx := rfl
@[simp] theorem State.writeEax_rdx : (s.writeEax v).rdx = s.rdx := rfl
@[simp] theorem State.writeEax_otherRegs : (s.writeEax v).otherRegs = s.otherRegs := rfl
@[simp] theorem State.writeEax_pc : (s.writeEax v).pc = s.pc := rfl
@[simp] theorem State.writeEax_flags : (s.writeEax v).flags = s.flags := rfl
@[simp] theorem State.writeEax_cr4Pce : (s.writeEax v).cr4Pce = s.cr4Pce := rfl
@[simp] theorem State.writeEax_cr0Pe : (s.writeEax v).cr0Pe = s.cr0Pe := rfl
@[simp] theorem State.writeEax_cpl : (s.writeEax v).cpl = s.cpl := rfl
@[simp] theorem State.writeEax_mode : (s.writeEax v).mode = s.mode := rfl
@[simp] theorem State.writeEax_cfg : (s.writeEax v).cfg = s.cfg := rfl
@[simp] theorem State.writeEax_mem : (s.writeEax v).mem = s.mem := rfl
@[simp] theorem State.writeEax_draws : (s.writeEax v).draws = s.draws := rfl

end writeEax

section writeEdx
variable (s : State) (v : Word32)

@[simp] theorem State.writeEdx_rax : (s.writeEdx v).rax = s.rax := rfl
@[simp] theorem State.writeEdx_rcx : (s.writeEdx v).rcx = s.rcx := rfl
@[simp] theorem State.writeEdx_rdx : (s.writeEdx v).rdx =
    s.upperAfter s.rdx (Config.rdxUpper s.draws) ++ v := rfl
@[simp] theorem State.writeEdx_otherRegs : (s.writeEdx v).otherRegs = s.otherRegs := rfl
@[simp] theorem State.writeEdx_pc : (s.writeEdx v).pc = s.pc := rfl
@[simp] theorem State.writeEdx_flags : (s.writeEdx v).flags = s.flags := rfl
@[simp] theorem State.writeEdx_cr4Pce : (s.writeEdx v).cr4Pce = s.cr4Pce := rfl
@[simp] theorem State.writeEdx_cr0Pe : (s.writeEdx v).cr0Pe = s.cr0Pe := rfl
@[simp] theorem State.writeEdx_cpl : (s.writeEdx v).cpl = s.cpl := rfl
@[simp] theorem State.writeEdx_mode : (s.writeEdx v).mode = s.mode := rfl
@[simp] theorem State.writeEdx_cfg : (s.writeEdx v).cfg = s.cfg := rfl
@[simp] theorem State.writeEdx_mem : (s.writeEdx v).mem = s.mem := rfl
@[simp] theorem State.writeEdx_draws : (s.writeEdx v).draws = s.draws := rfl

end writeEdx

section writeEdxOpt
variable (s : State) (v : Option Word32)

@[simp] theorem State.writeEdxOpt_rdx :
    (s.writeEdxOpt v).rdx =
      (match v with
       | some w => s.upperAfter s.rdx (Config.rdxUpper s.draws) ++ w
       | none => s.rdx) := by
  cases v <;> rfl

@[simp] theorem State.writeEdxOpt_rax : (s.writeEdxOpt v).rax = s.rax := by
  cases v <;> rfl
@[simp] theorem State.writeEdxOpt_rcx : (s.writeEdxOpt v).rcx = s.rcx := by
  cases v <;> rfl
@[simp] theorem State.writeEdxOpt_otherRegs : (s.writeEdxOpt v).otherRegs = s.otherRegs := by
  cases v <;> rfl
@[simp] theorem State.writeEdxOpt_pc : (s.writeEdxOpt v).pc = s.pc := by
  cases v <;> rfl
@[simp] theorem State.writeEdxOpt_flags : (s.writeEdxOpt v).flags = s.flags := by
  cases v <;> rfl
@[simp] theorem State.writeEdxOpt_cr4Pce : (s.writeEdxOpt v).cr4Pce = s.cr4Pce := by
  cases v <;> rfl
@[simp] theorem State.writeEdxOpt_cr0Pe : (s.writeEdxOpt v).cr0Pe = s.cr0Pe := by
  cases v <;> rfl
@[simp] theorem State.writeEdxOpt_cpl : (s.writeEdxOpt v).cpl = s.cpl := by
  cases v <;> rfl
@[simp] theorem State.writeEdxOpt_mode : (s.writeEdxOpt v).mode = s.mode := by
  cases v <;> rfl
@[simp] theorem State.writeEdxOpt_cfg : (s.writeEdxOpt v).cfg = s.cfg := by
  cases v <;> rfl
@[simp] theorem State.writeEdxOpt_mem : (s.writeEdxOpt v).mem = s.mem := by
  cases v <;> rfl
@[simp] theorem State.writeEdxOpt_draws : (s.writeEdxOpt v).draws = s.draws := by
  cases v <;> rfl

end writeEdxOpt

end Sys2Proof.Machine
end

