-- ==== Sys2Proof/Laws/Operands.lean ====
section
/-!
SUPPORT. RDPMC's operands as numbers: the registers, the fields of ECX, the halves of a sample.
-/
namespace Sys2Proof.Machine

theorem State.eax_toNat (s : State) : s.eax.toNat = s.rax.toNat % 2 ^ 32 := by
  simp [State.eax, BitVec.extractLsb'_toNat]

theorem State.ecx_toNat (s : State) : s.ecx.toNat = s.rcx.toNat % 2 ^ 32 := by
  simp [State.ecx, BitVec.extractLsb'_toNat]

theorem State.edx_toNat (s : State) : s.edx.toNat = s.rdx.toNat % 2 ^ 32 := by
  simp [State.edx, BitVec.extractLsb'_toNat]

theorem ecxIndex30_eq (c : Word32) : ecxIndex30 c = c.toNat % 2 ^ 30 := by
  simp [ecxIndex30, BitVec.extractLsb'_toNat]

theorem ecxIndex31_eq (c : Word32) : ecxIndex31 c = c.toNat % 2 ^ 31 := by
  simp [ecxIndex31, BitVec.extractLsb'_toNat]

/-- A bit of a word, as a number. -/
theorem getLsbD_eq_div (c : Word32) (i : Nat) :
    c.getLsbD i = decide (c.toNat / 2 ^ i % 2 = 1) := by
  simp [BitVec.getLsbD, Nat.testBit_eq_decide_div_mod_eq]

theorem ecxType_eq (c : Word32) : ecxType c = decide (c.toNat / 2 ^ 30 % 2 = 1) :=
  getLsbD_eq_div c 30

theorem ecxFast_eq (c : Word32) : ecxFast c = decide (c.toNat / 2 ^ 31 = 1) := by
  have h := c.isLt
  rw [ecxFast, getLsbD_eq_div]
  congr 1
  rw [eq_iff_iff]
  omega

theorem lowHalf_toNat {w : Nat} (v : BitVec w) : (lowHalf v).toNat = v.toNat % 2 ^ 32 := by
  simp [lowHalf, BitVec.extractLsb'_toNat]

theorem highHalf_toNat {w : Nat} (v : BitVec w) :
    (highHalf v).toNat = v.toNat / 2 ^ 32 % 2 ^ 32 := by
  simp [highHalf, BitVec.extractLsb'_toNat, Nat.shiftRight_eq_div_pow]

/-- The low half of a joined 64-bit register is what was written. -/
theorem append_toNat_mod (u v : Word32) : ((u ++ v : Word64)).toNat % 2 ^ 32 = v.toNat := by
  have h := v.isLt
  rw [BitVec.toNat_append, Nat.shiftLeft_eq, Nat.mul_comm, ← Nat.two_pow_add_eq_or_of_lt h,
    Nat.mul_add_mod]
  exact Nat.mod_eq_of_lt h

/-- The upper half of a joined 64-bit register is the other half. -/
theorem append_toNat_div (u v : Word32) : ((u ++ v : Word64)).toNat / 2 ^ 32 = u.toNat := by
  have h := v.isLt
  rw [BitVec.toNat_append, Nat.shiftLeft_eq, Nat.mul_comm, ← Nat.two_pow_add_eq_or_of_lt h,
    Nat.mul_add_div (by norm_num)]
  omega

/-- A read of EAX after a write of it. -/
theorem State.writeEax_eax (s : State) (v : Word32) : (s.writeEax v).eax = v := by
  apply BitVec.eq_of_toNat_eq
  rw [State.eax_toNat, State.writeEax_rax, append_toNat_mod]

/-- A read of EDX after a write of it. -/
theorem State.writeEdx_edx (s : State) (v : Word32) : (s.writeEdx v).edx = v := by
  apply BitVec.eq_of_toNat_eq
  rw [State.edx_toNat, State.writeEdx_rdx, append_toNat_mod]

end Sys2Proof.Machine
end

