-- ==== Sys2Proof/Laws/PerInstr.lean ====
section
/-!
SUPPORT. Statements made per instruction, one lemma per constructor.
-/
namespace Sys2Proof.Laws.Length

/-- The encoding of a well-formed instruction has the length rule R48 gives it, which is at least two
bytes and at most the longest admitted form's. -/
def Statement (i : Instr) : Prop :=
  i.wf = true ∧ (encode i).length = instrLength i ∧ 2 ≤ instrLength i ∧
    instrLength i ≤ maxInstrLength

theorem rdpmc : Statement .rdpmc := by unfold Statement; decide

theorem lockRdpmc : Statement .lockRdpmc := by unfold Statement; decide

end Sys2Proof.Laws.Length
end

