-- ==== Sys2Proof/Laws/Rdpmc.lean ====
section
/-!
SUPPORT. Everything an execution can do, said once: the fields of `complete`, and the inversion of
`execRdpmc`, `exec` and `step`.
-/
namespace Sys2Proof.Machine

section complete
variable (s : State) (sel : Selection)

@[simp] theorem complete_rcx : (complete s sel).rcx = s.rcx := by simp [complete]
@[simp] theorem complete_otherRegs : (complete s sel).otherRegs = s.otherRegs := by simp [complete]
@[simp] theorem complete_pc : (complete s sel).pc = s.pc + 2 := by simp [complete, instrLength]
@[simp] theorem complete_flags : (complete s sel).flags = s.flags := by simp [complete]
@[simp] theorem complete_cr4Pce : (complete s sel).cr4Pce = s.cr4Pce := by simp [complete]
@[simp] theorem complete_cr0Pe : (complete s sel).cr0Pe = s.cr0Pe := by simp [complete]
@[simp] theorem complete_cpl : (complete s sel).cpl = s.cpl := by simp [complete]
@[simp] theorem complete_mode : (complete s sel).mode = s.mode := by simp [complete]
@[simp] theorem complete_cfg : (complete s sel).cfg = s.cfg := by simp [complete]
@[simp] theorem complete_mem : (complete s sel).mem = s.mem := by simp [complete]
@[simp] theorem complete_draws : (complete s sel).draws = s.draws + 1 := by simp [complete]

theorem complete_rax : (complete s sel).rax =
    s.upperAfter s.rax (Config.raxUpper s.draws) ++ lowHalf (ctrRead s sel.counter) := by
  simp [complete]

theorem complete_rdx : (complete s sel).rdx =
    (match highOf s.cfg s.draws (ctrRead s sel.counter) sel.high with
     | some v => s.upperAfter s.rdx (Config.rdxUpper s.draws) ++ v
     | none => s.rdx) := by
  cases h : highOf s.cfg s.draws (ctrRead s sel.counter) sel.high <;>
    simp [complete, h, State.upperAfter]

end complete

/-- What RDPMC does: it completes with the selected counter, or raises #GP(0). -/
theorem execRdpmc_eq (s : State) :
    execRdpmc s =
      (if gateOpen s = true then
        (match selection s with
         | some sel => .next (complete s sel)
         | none => .fault (.gp0 s))
       else .fault (.gp0 s)) := rfl

theorem execLockRdpmc_eq (s : State) : execLockRdpmc s = .fault (.ud s) := rfl

@[simp] theorem exec_rdpmc (s : State) : exec .rdpmc s = execRdpmc s := rfl

@[simp] theorem exec_lockRdpmc (s : State) : exec .lockRdpmc s = .fault (.ud s) := rfl

/-- A next state comes from an open gate and a valid selector only. -/
theorem exec_next {i : Instr} {s t : State} (h : exec i s = .next t) :
    i = .rdpmc ∧ gateOpen s = true ∧ ∃ sel, selection s = some sel ∧ t = complete s sel := by
  cases i with
  | lockRdpmc => cases h
  | rdpmc =>
    rw [exec_rdpmc, execRdpmc_eq] at h
    split at h
    · split at h
      · rename_i hg _ sel hs
        exact ⟨rfl, hg, sel, hs, by simpa using h.symm⟩
      · cases h
    · cases h

/-- With an open gate and a valid selector RDPMC completes. -/
theorem execRdpmc_of_selection {s : State} {sel : Selection} (hg : gateOpen s = true)
    (hs : selection s = some sel) : execRdpmc s = .next (complete s sel) := by
  simp [execRdpmc_eq, hg, hs]

/-- A step that answers a next state ran RDPMC with an open gate and a valid selector. -/
theorem step_next {s t : State} (h : step s = .next t) :
    (∃ rest, decode s.fetched = .ok (.rdpmc, rest)) ∧ gateOpen s = true ∧
      ∃ sel, selection s = some sel ∧ t = complete s sel := by
  simp only [step] at h
  split at h
  · rename_i i rest hd
    obtain ⟨rfl, hg, hs⟩ := exec_next h
    exact ⟨⟨rest, hd⟩, hg, hs⟩
  · rename_i e _
    cases e <;> cases h

end Sys2Proof.Machine
end

