-- ==== Sys2Proof/Laws/Selector.lean ====
section
/-!
SUPPORT. The gate and the selector in the rules' own numbers, and the halves of a result: what ties
the model's operations to the words of Safety.lean.
-/
namespace Sys2Proof.Machine

theorem State.c_lt (s : State) : s.c < 2 ^ 32 := Nat.mod_lt _ (by norm_num)

theorem State.ecx_toNat_eq_c (s : State) : s.ecx.toNat = s.c := s.ecx_toNat

theorem gateOpen_iff (s : State) : gateOpen s = true ↔ s.Allowed := by
  simp [gateOpen, State.Allowed, or_assoc]

theorem ecxIndex30_ecx (s : State) : ecxIndex30 s.ecx = s.c29to0 := by
  rw [ecxIndex30_eq, s.ecx_toNat_eq_c]; rfl

theorem ecxIndex31_ecx (s : State) : ecxIndex31 s.ecx = s.c30to0 := by
  rw [ecxIndex31_eq, s.ecx_toNat_eq_c]; rfl

theorem ecxType_ecx (s : State) : ecxType s.ecx = decide (s.c30 = 1) := by
  rw [ecxType_eq, s.ecx_toNat_eq_c]; rfl

theorem ecxFast_ecx (s : State) : ecxFast s.ecx = decide (s.c31 = 1) := by
  rw [ecxFast_eq, s.ecx_toNat_eq_c]; rfl

/-- A bit of ECX is 0 or 1. -/
theorem State.c30_cases (s : State) : s.c30 = 0 ∨ s.c30 = 1 := by
  simp only [State.c30]; omega

theorem State.c31_cases (s : State) : s.c31 = 0 ∨ s.c31 = 1 := by
  have := s.c_lt
  simp only [State.c31]; omega

/-- The policies on ECX[31], said on numbers. -/
theorem ecx31Rejects_iff (s : State) :
    ecx31Rejects s.cfg s.draws s.ecx = true ↔ s.Ecx31Faults := by
  have h : s.ecx.getLsbD 31 = decide (s.c31 = 1) := ecxFast_ecx s
  simp only [ecx31Rejects, State.Ecx31Faults, h]
  cases s.cfg.variant <;> cases s.cfg.ecx31Policy <;> simp

/-- Where ECX[31] is clear or not examined, it makes no execution fault. -/
theorem State.Ecx31Plain.not_faults {s : State} (h : s.Ecx31Plain) : ¬ s.Ecx31Faults := by
  rintro ⟨hv, h1, h2⟩
  rcases h with h | h | h | h <;> simp_all

/-- The special-purpose indices of a configuration. -/
theorem Cfg.isSpecial_iff (k : Cfg) (i : Nat) :
    k.isSpecial i = true ↔ ∃ r, k.special = some r ∧ r.lo ≤ i ∧ i ≤ r.hi := by
  cases h : k.special <;> simp [Cfg.isSpecial, IndexRange.has, h]

/-- The bodies select a counter exactly where the rules say that ECX does. -/
theorem selectCounter_isSome_iff (s : State) :
    (∃ sel, selectCounter s.cfg s.ecx = some sel) ↔ s.Selects := by
  have h30 := s.c30_cases
  cases hv : s.cfg.variant <;>
    simp only [selectCounter, State.Selects, hv, selectCoreI7, selectCore2, selectP6,
      selectFamily15, ecxIndex30_ecx, ecxIndex31_ecx, ecxType_ecx, s.ecx_toNat_eq_c,
      ← Cfg.isSpecial_iff]
  · rcases h30 with h | h <;> simp [h]
  · rcases h30 with h | h
    · simp [h]; split <;> simp_all
    · simp [h]
  · split <;> simp_all
  · split
    · simp_all
    · split <;> simp_all

/-- The selection of an execution exists exactly where the selector is valid. -/
theorem selection_isSome_iff (s : State) : (∃ sel, selection s = some sel) ↔ s.SelectorValid := by
  simp only [selection, State.SelectorValid, ← ecx31Rejects_iff, ← selectCounter_isSome_iff]
  cases ecx31Rejects s.cfg s.draws s.ecx <;> simp

/-- Without a valid selector there is no selection. -/
theorem selection_eq_none_iff (s : State) : selection s = none ↔ ¬ s.SelectorValid := by
  rw [← selection_isSome_iff]
  cases selection s <;> simp

/-- EAX after completion: bits 31:0 of the sample. -/
theorem complete_eaxNat (s : State) (sel : Selection) :
    (complete s sel).eaxNat = (ctrRead s sel.counter).toNat % 2 ^ 32 := by
  rw [State.eaxNat, complete_rax, append_toNat_mod, lowHalf_toNat]

/-- EDX after completion, where it is written. -/
theorem complete_edxNat {s : State} {sel : Selection} {v : Word32}
    (h : highOf s.cfg s.draws (ctrRead s sel.counter) sel.high = some v) :
    (complete s sel).edxNat = v.toNat := by
  rw [State.edxNat, complete_rdx, h]
  exact append_toNat_mod _ _

/-- RDX after completion, where EDX is left as it was. -/
theorem complete_rdx_unchanged {s : State} {sel : Selection}
    (h : highOf s.cfg s.draws (ctrRead s sel.counter) sel.high = none) :
    (complete s sel).rdx = s.rdx := by
  rw [complete_rdx, h]

/-- Completion changes nothing but RAX, RDX, the pc and the count of draws. -/
theorem complete_differsByRead (s : State) (sel : Selection) :
    s.DiffersByRead (complete s sel) := by
  cases h : highOf s.cfg s.draws (ctrRead s sel.counter) sel.high <;>
    simp [complete, h, State.writeEdxOpt, State.rdpmcFlags, flagsAfterRdpmc, State.advancePc,
      State.nextDraw, State.writeEax, State.writeEdx]

end Sys2Proof.Machine
end

