-- ==== Sys2Proof/Tests/Slice0.lean ====
section
/-!
SUPPORT. The model's own tests: words and vectors written out from the spec (95_test_vectors.md; each
named by its id there), the ill-formed configurations that the checks refuse, and for every statement
with hypotheses a state and operands that meet them.
-/
namespace Sys2Proof.Tests
open Sys2Proof Sys2Proof.Machine

/-! ### Decoding, from the spec's encodings -/

/-- `0000 1111`, `0011 0011` (R40). -/
theorem test_decode_rdpmc_bits : decode [0b00001111#8, 0b00110011#8] = .ok (.rdpmc, []) := by decide

/-- `1111 0000`, then the two opcode bytes (R43, opcode table). -/
theorem test_decode_lock_bits :
    decode [0b11110000#8, 0b00001111#8, 0b00110011#8] = .ok (.lockRdpmc, []) := by decide

/-- R44: 66H, F2H and a second LOCK before `0F 33` are refused; R46: so is a neighbour, `0F 32`; and a
form cut short is not an instruction. -/
theorem test_decode_rejects :
    decode [0x66#8, 0x0F#8, 0x33#8] = .error (.otherPrefix 0x66#8) ∧
    decode [0xF0#8, 0xF2#8, 0x0F#8, 0x33#8] = .error (.otherPrefix 0xF2#8) ∧
    decode [0xF0#8, 0xF0#8, 0x0F#8, 0x33#8] = .error (.unlisted 0xF0#8) ∧
    decode [0x0F#8, 0x32#8] = .error (.unlisted 0x32#8) ∧
    decode [0xF0#8, 0x0F#8] = .error .truncated ∧ decode [] = .error .truncated := by decide

/-- The two rows of the opcode table, and no other word of 16 bits next to them. -/
theorem test_table_words :
    decodeTableWord 16 0x0F33 = some .rdpmc ∧ decodeTableWord 24 0xF00F33 = some .lockRdpmc ∧
    decodeTableWord 16 0x0F32 = none ∧ decodeTableWord 16 0x330F = none := by decide

/-! ### Configurations: the smoke test of every check -/

/-- Core i7's premise N_FIXED = 3 is that of 95_test_vectors.md; Atom's values are free ones. -/
def params : OpenParams := { resetParams with nFixed := 3 }

def cfgI7 : Cfg := Processor.cfg .coreI7Family params
def cfgC2 : Cfg := Processor.cfg .core2Duo params
def cfgX74 : Cfg := Processor.cfg .xeon7400 params
def cfgP6 : Cfg := Processor.cfg .p6Family params
def cfgF15 : Cfg := Processor.cfg .pentium4 params
def cfgF15L : Cfg := Processor.cfg .xeon64L3 params
def cfgAtom : Cfg := Processor.cfg .atom { params with variant := .coreI7, mscb := 63 }

theorem test_wf_accepts :
    ([cfgI7, cfgC2, cfgX74, cfgP6, cfgF15, cfgF15L, cfgAtom].all Cfg.wf) = true ∧
    Instr.rdpmc.wf = true ∧ Instr.lockRdpmc.wf = true := by decide

theorem test_wf_refuses_mscb :
    ({ cfgAtom with mscb := 31 } : Cfg).wf = false ∧ ({ cfgAtom with mscb := 64 } : Cfg).wf = false := by
  decide

theorem test_wf_refuses_fixed : ({ cfgI7 with nFixed := 2 ^ 30 + 1 } : Cfg).wf = false := by decide

theorem test_wf_refuses_special :
    ({ cfgX74 with special := some ⟨2, 10⟩ } : Cfg).wf = false ∧
    ({ cfgI7 with special := some ⟨2, 9⟩ } : Cfg).wf = false := by decide

theorem test_wf_refuses_l3 : ({ cfgC2 with l3Ctrs := true } : Cfg).wf = false := by decide

theorem test_wf_refuses_counts :
    ({ cfgI7 with nGp := 3 } : Cfg).wf = false ∧ ({ cfgC2 with nGp := 4 } : Cfg).wf = false ∧
    ({ cfgP6 with nGp := 3 } : Cfg).wf = false ∧ ({ cfgF15 with mscb := 47 } : Cfg).wf = false ∧
    ({ cfgX74 with mscb := 63 } : Cfg).wf = false ∧ ({ cfgX74 with nFixed := 0 } : Cfg).wf = false ∧
    ({ cfgF15L with nGp := 2 } : Cfg).wf = false := by
  decide

/-- Intel Atom's OPEN variant (D12): legal with each of the four. -/
theorem test_wf_accepts_atom :
    ∀ v ∈ [Variant.coreI7, .core2, .p6, .family15],
      (Processor.cfg .atom { params with variant := v, mscb := 47 }).wf = true := by decide

/-! ### The vectors -/

/-- The start state of 95_test_vectors.md, with the given text at P = 0x1000. -/
def start (k : Cfg) (ecx : Nat) (text : List Byte) : State :=
  { State.reset with
    cfg := k, rcx := BitVec.ofNat 64 ecx, rax := 0xAAAAAAAA#64, rdx := 0xDDDDDDDD#64,
    mode := .protectedMode, cr0Pe := true, cr4Pce := true, cpl := 3, pc := 0x1000,
    mem := Memory.writeBytes [] 0x1000 text }

/-- The bytes of the bare form and of the locked form. -/
def bare : List Byte := [0x0F#8, 0x33#8]
def locked : List Byte := [0xF0#8, 0x0F#8, 0x33#8]

/-- The counter read, EAX and EDX that a sample gives: a vector's row. -/
def rowOf (k : Cfg) (ecx sample : Nat) : Option (Counter × Word32 × Option Word32) :=
  (selectCounter k (BitVec.ofNat 32 ecx)).map fun sel =>
    let v := BitVec.ofNat (k.counterWidth sel.counter) sample
    (sel.counter, lowHalf v, highOf k 0 v sel.high)

/-- A vector: configuration, ECX, sample, and the counter, EAX and EDX expected (none: #GP(0)). -/
abbrev VectorRow := Cfg × Nat × Nat × Option (Counter × Word32 × Option Word32)

/-- The vector holds. -/
def holds (v : VectorRow) : Bool := rowOf v.1 v.2.1 v.2.2.1 == v.2.2.2

/-- V-I7-1 to -9, V-C2-1 to -5, V-74-2 to -4. -/
def coreVectors : List VectorRow :=
  [(cfgI7, 0x40000000, 0xFEDC89ABCDEF, some (.fixed 0, 0x89ABCDEF#32, some 0xFEDC#32)),
   (cfgI7, 3, 0x0000FFFFFFFF, some (.pmc 3, 0xFFFFFFFF#32, some 0#32)),
   (cfgI7, 0, 0x800000000000, some (.pmc 0, 0#32, some 0x8000#32)),
   (cfgI7, 4, 0, none),
   (cfgI7, 0x40000002, 0x000100000000, some (.fixed 2, 0#32, some 1#32)),
   (cfgI7, 0x40000003, 0, none),
   (cfgI7, 0x3FFFFFFF, 0, none),
   (cfgI7, 0x7FFFFFFF, 0, none),
   (cfgI7, 0x80000001, 0x123456789ABC, some (.pmc 1, 0x56789ABC#32, some 0x1234#32)),
   (cfgC2, 0x40000001, 0xAB92345678, some (.fixed 1, 0x92345678#32, some 0xAB#32)),
   (cfgC2, 1, 0xFFFFFFFFFF, some (.pmc 1, 0xFFFFFFFF#32, some 0xFF#32)),
   (cfgC2, 2, 0, none),
   (cfgC2, 0x40000002, 0x0100000000, some (.fixed 2, 0#32, some 1#32)),
   (cfgC2, 0x40000003, 0, none),
   (cfgX74, 0xA, 0, none),
   (cfgX74, 1, 0x7F00000001, some (.pmc 1, 1#32, some 0x7F#32)),
   ({ cfgX74 with edxSpecial := .zero }, 9, 1, some (.pmc 9, 1#32, some 0#32))]

/-- V-P6-1 to -6, V-F15-1 to -12. -/
def olderVectors : List VectorRow :=
  [(cfgP6, 0, 0xFF00000000, some (.pmc 0, 0#32, some 0xFF#32)),
   (cfgP6, 1, 0x0180000000, some (.pmc 1, 0x80000000#32, some 1#32)),
   (cfgP6, 2, 0, none),
   (cfgP6, 0x40000000, 0, none),
   (cfgP6, 0x80000001, 0, none),
   (cfgP6, 0xFFFFFFFF, 0, none),
   (cfgF15, 3, 0xCD89ABCDEF, some (.pmc 3, 0x89ABCDEF#32, some 0xCD#32)),
   (cfgF15, 0x80000003, 0xCD89ABCDEF, some (.pmc 3, 0x89ABCDEF#32, some 0#32)),
   (cfgF15, 0x11, 0xFFFFFFFFFF, some (.pmc 17, 0xFFFFFFFF#32, some 0xFF#32)),
   (cfgF15, 0x80000011, 0xFFFFFFFFFF, some (.pmc 17, 0xFFFFFFFF#32, some 0#32)),
   (cfgF15, 0x12, 0, none),
   (cfgF15, 0x40000000, 0, none),
   (cfgF15, 0, 0, some (.pmc 0, 0#32, some 0#32)),
   (cfgF15L, 0x12, 0x80000000, some (.pmc 18, 0x80000000#32, some 0#32)),
   (cfgF15L, 0x19, 0xCAFEF00D, some (.pmc 25, 0xCAFEF00D#32, some 0#32)),
   (cfgF15L, 0x80000019, 0xCAFEF00D, some (.pmc 25, 0xCAFEF00D#32, some 0#32)),
   (cfgF15L, 0x1A, 0, none),
   (cfgF15L, 0x8000001A, 0, none)]

/-- The spec's vectors of all four variants (95_test_vectors.md, section 2). -/
theorem test_rdpmc_result_vectors : (coreVectors ++ olderVectors).all holds = true := by decide +kernel

/-- V-74-1: EDX after a special-purpose read is the draw under `any`, left alone under `unchanged`. -/
theorem test_rdpmc_special_vectors :
    rowOf cfgX74 2 0xDEADBEEF = some (.pmc 2, 0xDEADBEEF#32, some (Config.specialEdx 0)) ∧
    rowOf { cfgX74 with edxSpecial := .unchanged } 2 0xDEADBEEF =
      some (.pmc 2, 0xDEADBEEF#32, none) :=
  ⟨rfl, by decide⟩

/-- What a step ends in: a next state (with its pc), #GP(0), #UD, or a stop. -/
inductive Kind where
  | next (pc : Nat)
  | gp
  | ud
  | stop
deriving DecidableEq

def kindOf : Result → Kind
  | .next t => .next t.pc
  | .fault (.gp0 _) => .gp
  | .fault (.ud _) => .ud
  | .fault (.noProgramText _) => .stop
  | .refused _ => .stop

/-- One row of the gate vectors, configuration C2: mode, CR0.PE, CR4.PCE, CPL, text, ECX. -/
def gateRow (m : Mode) (pe pce : Bool) (cpl : Fin 4) (text : List Byte) (ecx : Nat) : Kind :=
  kindOf (step { start cfgC2 ecx text with mode := m, cr0Pe := pe, cr4Pce := pce, cpl := cpl })

/-- V-G-1 to V-G-17: `pc = P + 2` on completion. -/
theorem test_gate_vectors :
    gateRow .protectedMode true false 0 bare 0 = .next 0x1002 ∧
    gateRow .protectedMode true false 1 bare 0 = .gp ∧
    gateRow .protectedMode true false 2 bare 0 = .gp ∧
    gateRow .protectedMode true false 3 bare 0 = .gp ∧
    gateRow .protectedMode true true 3 bare 0 = .next 0x1002 ∧
    gateRow .protectedMode true true 0 bare 0 = .next 0x1002 ∧
    gateRow .realAddress false false 0 bare 0 = .next 0x1002 ∧
    gateRow .realAddress false false 0 bare 2 = .gp ∧
    gateRow .virtual8086 true false 3 bare 0 = .gp ∧
    gateRow .virtual8086 true true 3 bare 0 = .next 0x1002 ∧
    gateRow .compatibility true false 3 bare 0 = .gp ∧
    gateRow .mode64 true false 3 bare 0 = .gp ∧
    gateRow .mode64 true false 0 bare 0xFFFFFFFF00000000 = .next 0x1002 ∧
    gateRow .protectedMode true true 3 locked 0 = .ud ∧
    gateRow .protectedMode true false 3 locked 2 = .ud ∧
    gateRow .realAddress false false 0 locked 0 = .ud ∧
    gateRow .protectedMode true false 3 bare 2 = .gp := by decide +kernel

/-- The first instruction after reset, placed at the pc: it completes. -/
theorem test_first_after_reset :
    kindOf (step (State.reset.withFetchWord 16 0x0F33)) = .next 0xFFFFFFF2 ∧
    kindOf (step (State.reset.withFetchWord 24 0xF00F33)) = .ud ∧
    kindOf (step State.reset) = .stop := by decide +kernel

/-- Table 4-12: signatures and rows (R21). -/
theorem test_table_rows :
    processorOf 0x0F 0x04 true = some .xeon64L3 ∧ processorOf 0x0F 0x04 false = some .pentium4NoL3 ∧
    processorOf 0x0F 0x06 true = some .xeon7100L3 ∧ processorOf 0x06 0x1D false = some .xeon7400 ∧
    processorOf 0x06 0x2E true = some .coreI7Family ∧ processorOf 0x06 0x02 false = none := by decide

/-! ### Witnesses: the hypotheses of every statement are met -/

/-- A legal Core 2 state about to run RDPMC. -/
def sC2 : State := start cfgC2 0 bare

theorem witness_start_runs :
    sC2.TextAt sC2.pc bare ∧ sC2.Inv ∧ (∃ t, step sC2 = .next t) ∧
      decode sC2.fetched = .ok (.rdpmc, []) := by
  refine ⟨?_, ?_, ⟨_, rfl⟩, by decide⟩
  · unfold State.TextAt; decide
  · decide

theorem witness_lock_runs :
    let s := { start cfgC2 2 locked with cr4Pce := false }
    s.TextAt s.pc locked ∧ ¬ (s.Allowed ∧ s.SelectorValid) ∧ exec .lockRdpmc s = .fault (.ud s) := by
  refine ⟨?_, fun h => absurd h.1 (by decide), rfl⟩
  unfold State.TextAt; decide

theorem witness_other_form :
    (start cfgC2 0 [0x66#8, 0x0F#8, 0x33#8]).TextAt 0x1000 [0x66#8, 0x0F#8, 0x33#8] ∧
    ¬ ((0x66#8 : Byte) = 0x0F#8) ∧ ¬ ((0x66#8 : Byte) = 0xF0#8) := by
  refine ⟨?_, by decide, by decide⟩
  unfold State.TextAt; decide

theorem witness_missing_text :
    step (start cfgC2 0 [0x0F#8]) = .fault (.noProgramText 0x1001) ∧
    step (start cfgC2 0 locked.dropLast) = .fault (.noProgramText 0x1002) ∧
    (start cfgC2 0 []).mem.read 0x1000 = none := ⟨rfl, rfl, rfl⟩

theorem witness_canonical_texts :
    (Memory.writeBytes [] 5 bare).wf = true ∧
    (Memory.write (Memory.write [] 6 0x33#8) 5 0x0F#8).wf = true ∧
    ∀ a, (Memory.writeBytes [] 5 bare).read a =
      (Memory.write (Memory.write [] 6 0x33#8) 5 0x0F#8).read a :=
  ⟨by decide, by decide, fun _ => rfl⟩

theorem witness_gate_open : sC2.SelectorValid ∧ sC2.Allowed ∧ ∃ t, exec .rdpmc sC2 = .next t :=
  ⟨(selection_isSome_iff sC2).1 ⟨_, rfl⟩, by decide, ⟨_, rfl⟩⟩

theorem witness_gate_closed :
    let s := { sC2 with cr4Pce := false }
    ¬ (s.cr4Pce = true ∨ s.cpl = 0 ∨ s.cr0Pe = false) ∧ s.SelectorValid ∧
      exec .rdpmc s = .fault (.gp0 s) :=
  ⟨by decide, (selection_isSome_iff _).1 ⟨_, rfl⟩, rfl⟩

/-- The gate passes and the selector is the first that names no counter. -/
theorem witness_no_counter :
    let s := start cfgC2 2 bare
    s.Ecx31Plain ∧ s.Allowed ∧ ¬ s.Selects ∧ exec .rdpmc s = .fault (.gp0 s) := by
  refine ⟨by decide, by decide, fun h => ?_, rfl⟩
  obtain ⟨sel, hs⟩ := (selectCounter_isSome_iff (start cfgC2 2 bare)).2 h
  rw [show selectCounter (start cfgC2 2 bare).cfg (start cfgC2 2 bare).ecx = none from rfl] at hs
  cases hs

/-- The five modes, each in a legal state in which it raises #GP(0) or may not. -/
theorem witness_modes :
    ({ sC2 with mode := .compatibility } : State).ModesLegal ∧
    ({ sC2 with mode := .virtual8086 } : State).ModesLegal ∧
    ({ sC2 with mode := .mode64, cpl := 0 } : State).ModesLegal ∧
    ({ sC2 with mode := .realAddress, cr0Pe := false } : State).ModesLegal ∧
    sC2.ModesLegal ∧ sC2.Ecx31Plain ∧ sC2.mode = .protectedMode ∧ sC2.cr0Pe = true := by decide

/-- The `coreI7` body's clauses at the ends of their ranges. -/
theorem witness_coreI7 :
    let s := fun c => start cfgI7 c bare
    (s 0).cfg.variant = .coreI7 ∧ (s 0).cfg.mscb = 47 ∧ (s 0).cfg.nGp = 4 ∧ (s 0).Allowed ∧
    (∀ c ∈ [0, 3, 4, 0x3FFFFFFF, 0x40000002, 0x40000003], (s c).Ecx31Plain) ∧
    ((s 0x40000002).c30 = 1 ∧ (s 0x40000002).c29to0 = 2) ∧
    ((s 3).c30 = 0 ∧ (s 3).c29to0 = 3) ∧ ((s 4).c30 = 0 ∧ (s 4).c29to0 = 4) ∧
    ((s 0x40000003).c30 = 1 ∧ (s 0x40000003).c29to0 = 3) ∧
    ¬ ({ s 0 with cr4Pce := false } : State).Allowed := by decide

/-- The `core2` body's clauses at the ends of their ranges, with and without special-purpose
counters. -/
theorem witness_core2 :
    let s := fun k c => start k c bare
    (∀ k ∈ [cfgC2, cfgX74], k.variant = .core2 ∧ k.mscb = 39 ∧ k.nGp = 2 ∧ k.nFixed = 3 ∧
      (k.special = none ∨ k.special = some ⟨2, 9⟩)) ∧
    (∀ c ∈ [1, 2, 9, 10, 0x40000002, 0x40000003],
      (s cfgX74 c).Ecx31Plain ∧ (s cfgX74 c).Allowed) ∧
    (s cfgX74 2).c29to0 = 2 ∧ (s cfgX74 9).c29to0 = 9 ∧ (s cfgX74 10).c29to0 = 10 ∧
    (s cfgX74 1).c29to0 = 1 ∧ (s cfgX74 0x40000002).c30 = 1 := by decide

theorem witness_p6 :
    (∀ c ∈ [0, 1, 2, 0xFFFFFFFF], (start cfgP6 c bare).Allowed ∧ (start cfgP6 c bare).c = c) ∧
    (start cfgP6 0 bare).cfg.variant = .p6 ∧ cfgP6.mscb = 39 ∧ cfgP6.nGp = 2 := by decide

theorem witness_family15 :
    (∀ k ∈ [cfgF15, cfgF15L], k.variant = .family15 ∧ k.mscb = 39 ∧ k.nGp = 18) ∧
    (∀ c ∈ [17, 18, 25, 26], (start cfgF15L c bare).c30to0 = c ∧ (start cfgF15L c bare).c31 = 0) ∧
    (start cfgF15L 0x80000011 bare).c30to0 = 17 ∧ (start cfgF15L 0x80000011 bare).c31 = 1 ∧
    (start cfgF15L 0 bare).Allowed := by decide

theorem witness_any_width :
    let s := start cfgAtom 0x40000002 bare
    let g := start cfgAtom 1 bare
    s.cfg.variant = .coreI7 ∧ s.cfg.wf = true ∧ s.Ecx31Plain ∧ s.Allowed ∧ s.c30 = 1 ∧
    s.c29to0 < s.cfg.nFixed ∧ g.c30 = 0 ∧ g.c29to0 < g.cfg.nGp ∧ g.Ecx31Plain ∧
    s.cfg.special = none := by decide

/-- Intel Atom with the `p6` and the `family15` variant: at N_GP - 1, at N_GP, and the L3 arm of a
processor that has it. -/
theorem witness_older_any_width :
    let k := fun v => Processor.cfg .atom { params with variant := v, mscb := 47 }
    (∀ v ∈ [Variant.p6, .family15], (k v).variant = v ∧ (k v).wf = true ∧
      (start (k v) 1 bare).Allowed ∧ (start (k v) 1 bare).c < (k v).nGp ∧
      ¬ (start (k v) 2 bare).c30to0 < (k v).nGp) ∧
    (start (k .family15) 0x80000001 bare).c31 = 1 ∧
    cfgF15L.wf = true ∧ (start cfgF15L 18 bare).c30to0 = 18 ∧ cfgF15L.l3Ctrs = true := by decide

/-- One completed read of each kind, in a legal configuration. -/
theorem witness_reads :
    (∃ t, exec .rdpmc sC2 = .next t ∧ selection sC2 = some ⟨.pmc 0, .counterBits⟩) ∧
    (∃ t, exec .rdpmc (start cfgF15 0x80000003 bare) = .next t ∧
      selection (start cfgF15 0x80000003 bare) = some ⟨.pmc 3, .zero⟩) ∧
    (∃ t, exec .rdpmc (start cfgX74 2 bare) = .next t ∧
      selection (start cfgX74 2 bare) = some ⟨.pmc 2, .special⟩) ∧
    (∃ t, exec .rdpmc (start cfgI7 3 bare) = .next t) ∧
    (∃ t, exec .rdpmc (start cfgP6 1 bare) = .next t) ∧
    cfgC2.wf = true ∧ cfgF15.wf = true ∧ cfgX74.wf = true ∧ cfgC2.special = none :=
  ⟨⟨_, rfl, rfl⟩, ⟨_, rfl, rfl⟩, ⟨_, rfl, rfl⟩, ⟨_, rfl⟩, ⟨_, rfl⟩, by decide, by decide, by decide,
    by decide⟩

/-- Completed reads for the three clauses on the upper halves, EDX left unchanged among them. -/
theorem witness_upper_halves :
    (∃ t, exec .rdpmc { sC2 with mode := .mode64 } = .next t) ∧ sC2.cfg.upper32 = .zero ∧
    (∃ t, exec .rdpmc { sC2 with mode := .mode64, cfg := { cfgC2 with upper32 := .any } } = .next t) ∧
    (∃ t, exec .rdpmc { start { cfgX74 with edxSpecial := .unchanged } 2 bare with mode := .mode64 } =
      .next t ∧ t.rdx = 0xDDDDDDDD#64) ∧ sC2.mode ≠ .mode64 :=
  ⟨⟨_, rfl⟩, rfl, ⟨_, rfl⟩, ⟨_, rfl, rfl⟩, by decide⟩

/-- A special-purpose read under `unchanged`, and one that is none. -/
theorem witness_special_read :
    let s := start { cfgX74 with edxSpecial := .unchanged } 2 bare
    let g := start { cfgX74 with edxSpecial := .unchanged } 1 bare
    s.SpecialRead ∧ s.cfg.edxSpecial = .unchanged ∧ (∃ t, exec .rdpmc s = .next t) ∧
    ¬ g.SpecialRead ∧ (∃ t, exec .rdpmc g = .next t) :=
  ⟨by decide, rfl, ⟨_, rfl⟩, by decide, ⟨_, rfl⟩⟩

/-- ECX[31] = 1 where the policy plays no part: a fast read of family 15 under `fault`, and P6. -/
theorem witness_ecx31_older :
    let f := start { cfgF15 with ecx31Policy := .fault } 0x80000003 bare
    let p := start { cfgP6 with ecx31Policy := .either } 0x80000001 bare
    f.Ecx31Plain ∧ f.c31 = 1 ∧ (∃ t, exec .rdpmc f = .next t) ∧ p.Ecx31Plain ∧ p.c31 = 1 ∧
    exec .rdpmc p = .fault (.gp0 p) :=
  ⟨by decide, by decide, ⟨_, rfl⟩, by decide, by decide, rfl⟩

/-- ECX[31] = 1 under each policy, on a selector that is otherwise valid. -/
theorem witness_ecx31 :
    let s := fun p => start { cfgI7 with ecx31Policy := p } 0x80000001 bare
    (∀ p ∈ [Ecx31Policy.ignore, .fault, .either], (s p).c31 = 1 ∧ (s p).Allowed) ∧
    (∀ p, (s p).Selects) ∧ (∃ t, exec .rdpmc (s .ignore) = .next t) ∧
    exec .rdpmc (s .fault) = .fault (.gp0 (s .fault)) :=
  ⟨by decide, fun p => by cases p <;> exact (selectCounter_isSome_iff _).1 ⟨_, rfl⟩, ⟨_, rfl⟩, rfl⟩

/-- Two values of RCX with the same low half. -/
theorem witness_rcx_upper :
    (0xFFFFFFFF00000000#64).toNat % 2 ^ 32 = sC2.rcx.toNat % 2 ^ 32 ∧ sC2.rcx ≠ 0xFFFFFFFF00000000#64 := by
  decide

/-- Program P2: two fast reads in a row on family 15. -/
theorem witness_back_to_back :
    let s := { start cfgF15 0x80000005 (bare ++ bare) with cpl := 0, cr4Pce := false }
    ∃ t, selection s = some ⟨.pmc 5, .zero⟩ ∧ step s = .next t ∧ t.TextAt t.pc bare ∧
      (s.cfg.ecx31Policy = .either → s.c31 = 0 ∨ s.cfg.variant = .p6 ∨ s.cfg.variant = .family15) ∧
      ∃ u, step t = .next u ∧ u.pc = 0x1004 := by
  refine ⟨_, rfl, rfl, ?_, by decide, _, rfl, rfl⟩
  unfold State.TextAt
  intro k hk
  match k, hk with
  | 0, _ => rfl
  | 1, _ => rfl

/-- Table 4-12's row 10 at both ends of its range, one past it, and Intel Atom's row. -/
theorem witness_table :
    Processor.validPmcRange .xeon7400 = some ⟨0, 9⟩ ∧ cfgX74.wf = true ∧
    Processor.generalPurposeRange .xeon7400 = some ⟨0, 1⟩ ∧
    (∀ c ∈ [0, 9, 10], (start cfgX74 c bare).c = c ∧ (start cfgX74 c bare).Allowed) ∧
    Processor.validPmcRange .atom = some ⟨0, 1⟩ ∧ cfgAtom.wf = true ∧ params.nFixed ≤ 2 ^ 30 ∧
    Processor.fits .xeon64L3 0x0F 0x03 true = true ∧
    processorOf 0x0F 0x03 true = some .xeon64L3 := by decide

end Sys2Proof.Tests
end

/-!
PROOFS of the statements of the family 00_scope.md: the invariant of R19 and R3 (at reset and over every
step), the canonical program text of log entry 10, and the legal configurations of R22.
-/

/-! ### What every step keeps (R19, R53; decision D16) -/

namespace Sys2Proof.Machine

/-- Completion writes no field that the invariant reads. -/
theorem complete_inv (s : State) (sel : Selection) : (complete s sel).Inv ↔ s.Inv := by
  simp only [State.Inv, State.ModesLegal, complete_mode, complete_cr0Pe, complete_cpl,
    complete_cfg, complete_mem]

/-- Settles O13: a step that answers a next state completed RDPMC, and completion changes neither the
fields of the invariant nor the configuration. -/
theorem stepKeepsInvariant : Obligations.StepKeepsInvariant := by
  intro s t hs hstep
  obtain ⟨-, -, sel, -, rfl⟩ := step_next hstep
  exact ⟨(complete_inv s sel).2 hs, complete_cfg s sel⟩

/-! ### Canonical program texts (R6, R31; log entry 10) -/

/-- The canonical form, as a relation between any two of its cells. -/
theorem Memory.wf_iff_pairwise (m : Memory) :
    m.wf = true ↔ List.Pairwise (InvImage (· < ·) Prod.fst) m := by
  induction m with
  | nil => simp [Memory.wf]
  | cons c m ih =>
    rw [Memory.wf_cons, List.pairwise_cons, ih]
    rfl

/-- A byte that is read stands in the list, in any text. -/
theorem Memory.mem_of_read {m : Memory} {a : Nat} {v : Byte} (h : m.read a = some v) :
    (a, v) ∈ m := by
  induction m with
  | nil => cases h
  | cons c m ih =>
    obtain ⟨k, b⟩ := c
    rw [Memory.read_cons] at h
    split at h
    case isTrue hk =>
      obtain rfl : b = v := Option.some.inj h
      exact hk ▸ List.mem_cons_self
    case isFalse => exact List.mem_cons_of_mem _ (ih h)

/-- In a canonical text no cell hides a later one, so every listed byte is read. -/
theorem Memory.read_of_mem {m : Memory} (hm : m.wf = true) {a : Nat} {v : Byte}
    (h : (a, v) ∈ m) : m.read a = some v := by
  induction m with
  | nil => cases h
  | cons c m ih =>
    obtain ⟨k, b⟩ := c
    obtain ⟨habove, hwf⟩ := (Memory.wf_cons k b m).1 hm
    rw [Memory.read_cons]
    rcases List.mem_cons.1 h with heq | htail
    · obtain ⟨rfl, rfl⟩ := Prod.mk.inj heq
      exact if_pos rfl
    · have hk : k < a := habove _ htail
      rw [if_neg hk.ne, ih hwf htail]

/-- In a canonical text reading and listing are the same. -/
theorem Memory.mem_iff_read {m : Memory} (hm : m.wf = true) (c : Host.Cell) :
    c ∈ m ↔ m.read c.1 = some c.2 :=
  ⟨Memory.read_of_mem hm, Memory.mem_of_read⟩

/-- Settles O9: texts that read alike list the same cells, and both list them by rising address. -/
theorem canonicalTextsAreEqual : Obligations.CanonicalTextsAreEqual := by
  intro m n hm hn hread
  have hcells : ∀ c, c ∈ m ↔ c ∈ n := fun c => by
    rw [Memory.mem_iff_read hm, Memory.mem_iff_read hn, hread]
  exact ((Memory.wf_iff_pairwise m).1 hm).eq_of_mem_iff ((Memory.wf_iff_pairwise n).1 hn) hcells

end Sys2Proof.Machine

/-! ### Legal configurations (R3, R22; decisions D11, D12) -/

namespace Sys2Proof

theorem Cfg.mscbFits_iff (k : Cfg) : k.mscbFits = true ↔ 32 ≤ k.mscb ∧ k.mscb ≤ 63 := by
  simp [Cfg.mscbFits]

theorem Cfg.fixedFits_iff (k : Cfg) : k.fixedFits = true ↔ k.nFixed ≤ 2 ^ 30 := by
  simp [Cfg.fixedFits]

/-- The numbers that R3 fixes put MSCB within its bounds. -/
theorem Cfg.mscbFits_of_hasFixedNumbers {k : Cfg} (h : k.hasFixedNumbers = true) :
    k.mscbFits = true := by
  rw [Cfg.mscbFits_iff]
  cases hv : k.variant <;>
    · simp [Cfg.hasFixedNumbers, hv] at h
      omega

/-- With the numbers that R3 fixes, what is left to check is N_FIXED and the two extra ranges. -/
theorem Cfg.wf_of_hasFixedNumbers {k : Cfg} (hn : k.hasFixedNumbers = true)
    (hf : k.fixedFits = true) (hs : k.specialLegal = true) (hl : k.l3Legal = true) :
    k.wf = true := by
  simp [Cfg.wf, Cfg.countsLegal, Cfg.mscbFits_of_hasFixedNumbers hn, hn, hf, hs, hl]

/-- With Intel Atom's numbers, what is left to check is MSCB and N_FIXED, on any variant. -/
theorem Cfg.wf_of_hasAtomNumbers {k : Cfg} (hn : k.hasAtomNumbers = true)
    (hm : k.mscbFits = true) (hf : k.fixedFits = true) : k.wf = true := by
  have ⟨⟨_, hspecial⟩, hl3⟩ : (k.nGp = 2 ∧ k.special = none) ∧ k.l3Ctrs = false := by
    simpa [Cfg.hasAtomNumbers] using hn
  simp [Cfg.wf, Cfg.countsLegal, Cfg.specialLegal, Cfg.l3Legal, hn, hm, hf, hspecial, hl3]

/-- Every processor but Intel Atom has the numbers of its variant. -/
theorem Processor.cfg_hasFixedNumbers {p : Processor} (hp : p ≠ .atom) (o : OpenParams) :
    (p.cfg o).hasFixedNumbers = true := by
  cases p with
  | atom => exact absurd rfl hp
  | _ => rfl

/-- Only the Xeon 7400 has special-purpose indices, and it is a `core2` processor. -/
theorem Processor.cfg_specialLegal (p : Processor) (o : OpenParams) :
    (p.cfg o).specialLegal = true := by
  cases p <;> rfl

/-- Only `family15` processors have the L3 counters. -/
theorem Processor.cfg_l3Legal (p : Processor) (o : OpenParams) : (p.cfg o).l3Legal = true := by
  cases p <;> rfl

/-- N_FIXED is the OPEN number or at most 3. -/
theorem Processor.cfg_fixedFits (p : Processor) {o : OpenParams} (ho : o.nFixed ≤ 2 ^ 30) :
    (p.cfg o).fixedFits = true := by
  have hopen : (p.cfg o).nFixed = o.nFixed ∨ (p.cfg o).nFixed ≤ 3 := by
    cases p <;> simp [Processor.cfg, OpenParams.toCfg]
  rw [Cfg.fixedFits_iff]
  omega

/-- Settles O44: Intel Atom by its own numbers, every other processor by those of its variant. -/
theorem processorsAreLegal : Obligations.ProcessorsAreLegal := by
  intro p o hfixed hatom
  have hf := p.cfg_fixedFits hfixed
  by_cases hp : p = .atom
  · subst hp
    exact Cfg.wf_of_hasAtomNumbers rfl ((Cfg.mscbFits_iff _).2 (hatom rfl)) hf
  · exact Cfg.wf_of_hasFixedNumbers (Processor.cfg_hasFixedNumbers hp o) hf
      (p.cfg_specialLegal o) (p.cfg_l3Legal o)

/-! ### The state after reset (log entries 1 and 11) -/

/-- Settles O12: the modes are those of R26, the configuration is a processor's of R22, and the program
text is empty. -/
theorem invariantAtReset : Obligations.InvariantAtReset := by
  have hmodes : Machine.State.reset.ModesLegal := by decide
  have hcfg : Machine.State.reset.cfg.wf = true :=
    processorsAreLegal .xeon7400 Machine.resetParams (by decide) nofun
  exact ⟨hmodes, hcfg, rfl⟩

end Sys2Proof

/-!
PROOFS of the statements of the family 10_state.md: the frame of an execution, its results at every
counter width, what plays no part in it, two reads in a row, and Table 4-12 against the bodies.
-/

namespace Sys2Proof.Machine

/-! ### The outcomes of RDPMC (R51, R52, R61) -/

theorem exec_rdpmc_eq_next_iff (s t : State) :
    exec .rdpmc s = .next t ↔
      gateOpen s = true ∧ ∃ sel, selection s = some sel ∧ t = complete s sel := by
  constructor
  · exact fun h => (exec_next h).2
  · rintro ⟨hg, sel, hs, rfl⟩
    exact execRdpmc_of_selection hg hs

theorem exec_rdpmc_eq_gp_iff (s : State) :
    exec .rdpmc s = .fault (.gp0 s) ↔ (gateOpen s = true → selection s = none) := by
  rw [exec_rdpmc, execRdpmc_eq]
  cases gateOpen s <;> cases selection s <;> simp

/-- RDPMC completes exactly where the rules say that it is allowed and the selector valid. -/
theorem exec_rdpmc_completes_iff (s : State) :
    (∃ t, exec .rdpmc s = .next t) ↔ s.Allowed ∧ s.SelectorValid := by
  simp only [exec_rdpmc_eq_next_iff, ← gateOpen_iff, ← selection_isSome_iff]
  constructor
  · rintro ⟨t, hg, sel, hs, -⟩
    exact ⟨hg, sel, hs⟩
  · rintro ⟨hg, sel, hs⟩
    exact ⟨_, hg, sel, hs, rfl⟩

/-- Settles O11: every field is the one `State.reset` writes. -/
theorem resetValues : Obligations.ResetValues :=
  ⟨rfl, rfl, rfl, rfl, rfl, rfl, rfl, rfl, rfl⟩

/-- Settles O14: a next state is the completion of a read, and completion writes no field of the
frame. -/
theorem frameOfExec : Obligations.FrameOfExec := by
  intro i s t h
  obtain ⟨rfl, -, sel, -, rfl⟩ := exec_next h
  simp

/-- Settles O15. -/
theorem completionAdvancesPc : Obligations.CompletionAdvancesPc := by
  intro s t h
  obtain ⟨-, -, sel, -, rfl⟩ := exec_next h
  exact ⟨complete_pc s sel, complete_draws s sel⟩

/-! ### Completion as one update of the state -/

/-- EDX is left as it was by a special-purpose read under `EDX_SPECIAL = unchanged` only (R55). -/
theorem highOf_eq_none_iff (k : Cfg) (draw : Nat) {w : Nat} (v : BitVec w) (h : HighPart) :
    highOf k draw v h = none ↔ h = .special ∧ k.edxSpecial = .unchanged := by
  cases h <;> simp [highOf, edxSpecial]
  cases k.edxSpecial <;> simp

/-- Completion, its four written fields side by side. -/
theorem complete_eq (s : State) (sel : Selection) :
    complete s sel =
      { s with
        rax := s.upperAfter s.rax (Config.raxUpper s.draws) ++ lowHalf (ctrRead s sel.counter)
        rdx := (highOf s.cfg s.draws (ctrRead s sel.counter) sel.high).elim s.rdx
          (s.upperAfter s.rdx (Config.rdxUpper s.draws) ++ ·)
        pc := s.pc + 2
        draws := s.draws + 1 } := by
  have hrdx := complete_rdx s sel
  cases h : highOf s.cfg s.draws (ctrRead s sel.counter) sel.high <;>
    rw [h] at hrdx <;>
    rw [complete_differsByRead s sel, complete_rax, hrdx, complete_pc, complete_draws] <;> rfl

/-- EDX after completion: what the selection gives it, or EDX as it was. -/
theorem complete_edxNat_eq (s : State) (sel : Selection) :
    (complete s sel).edxNat =
      (highOf s.cfg s.draws (ctrRead s sel.counter) sel.high).elim s.edxNat BitVec.toNat := by
  cases h : highOf s.cfg s.draws (ctrRead s sel.counter) sel.high with
  | none => exact congrArg (·.toNat % 2 ^ 32) (complete_rdx_unchanged h)
  | some v => exact complete_edxNat h

/-! ### The upper halves (R12; decision D1) -/

theorem State.upperAfter_mode64_zero {s : State} (hm : s.mode = .mode64)
    (hu : s.cfg.upper32 = .zero) (old : Word64) (drawn : Word32) :
    s.upperAfter old drawn = 0#32 := by
  simp [State.upperAfter, hm, hu]

theorem State.upperAfter_mode64_any {s : State} (hm : s.mode = .mode64)
    (hu : s.cfg.upper32 = .any) (old : Word64) (drawn : Word32) :
    s.upperAfter old drawn = drawn := by
  simp [State.upperAfter, hm, hu]

theorem State.upperAfter_of_ne_mode64 {s : State} (hm : s.mode ≠ .mode64) (old : Word64)
    (drawn : Word32) : s.upperAfter old drawn = old.extractLsb' 32 32 := by
  cases h : s.mode <;> simp_all [State.upperAfter]

theorem upperHalf_toNat (w : Word64) : (w.extractLsb' 32 32).toNat = w.toNat / 2 ^ 32 := by
  have h := w.isLt
  rw [BitVec.extractLsb'_toNat, Nat.shiftRight_eq_div_pow]
  omega

theorem complete_rax_upper (s : State) (sel : Selection) :
    (complete s sel).rax.toNat / 2 ^ 32 =
      (s.upperAfter s.rax (Config.raxUpper s.draws)).toNat := by
  rw [complete_rax, append_toNat_div]

/-- RDX[63:32] is written with EDX, and RDX is left whole where EDX is not written. -/
theorem complete_rdx_upper (s : State) (sel : Selection) :
    (complete s sel).rdx.toNat / 2 ^ 32 =
        (s.upperAfter s.rdx (Config.rdxUpper s.draws)).toNat ∨
      (sel.high = .special ∧ s.cfg.edxSpecial = .unchanged ∧ (complete s sel).rdx = s.rdx) := by
  cases h : highOf s.cfg s.draws (ctrRead s sel.counter) sel.high with
  | none =>
    obtain ⟨hspecial, hunchanged⟩ := (highOf_eq_none_iff ..).1 h
    exact .inr ⟨hspecial, hunchanged, complete_rdx_unchanged h⟩
  | some v =>
    rw [complete_rdx, h]
    exact .inl (append_toNat_div _ _)

/-! ### The selection in the rules' numbers (R54 to R57) -/

theorem selection_of_not_faults {s : State} (h : ¬ s.Ecx31Faults) :
    selection s = selectCounter s.cfg s.ecx := by
  rw [← ecx31Rejects_iff] at h
  simp [selection, h]

theorem selectCounter_of_selection {s : State} {sel : Selection} (h : selection s = some sel) :
    selectCounter s.cfg s.ecx = some sel := by
  obtain ⟨-, hf⟩ := (selection_isSome_iff s).1 ⟨sel, h⟩
  rwa [selection_of_not_faults hf] at h

/-- The policies on ECX[31] rule the Core variants only (R63). -/
theorem State.not_ecx31Faults_of_older {s : State}
    (h : s.cfg.variant = .p6 ∨ s.cfg.variant = .family15) : ¬ s.Ecx31Faults :=
  State.Ecx31Plain.not_faults (.inr (.inr h))

theorem selectCounter_coreI7 {s : State} (hv : s.cfg.variant = .coreI7) :
    selectCounter s.cfg s.ecx =
      if s.c30 = 1 ∧ s.c29to0 < s.cfg.nFixed then some ⟨.fixed s.c29to0, .counterBits⟩
      else if s.c30 = 0 ∧ s.c29to0 < s.cfg.nGp then some ⟨.pmc s.c29to0, .counterBits⟩
      else none := by
  rcases s.c30_cases with h | h <;>
    simp [selectCounter, hv, selectCoreI7, ecxType_ecx, ecxIndex30_ecx, h]

theorem selectCounter_core2 {s : State} (hv : s.cfg.variant = .core2) :
    selectCounter s.cfg s.ecx =
      if s.c30 = 1 ∧ s.c29to0 < s.cfg.nFixed then some ⟨.fixed s.c29to0, .counterBits⟩
      else if s.c30 = 0 ∧ s.c29to0 < s.cfg.nGp then some ⟨.pmc s.c29to0, .counterBits⟩
      else if s.c30 = 0 ∧ s.cfg.isSpecial s.c29to0 = true then some ⟨.pmc s.c29to0, .special⟩
      else none := by
  rcases s.c30_cases with h | h <;>
    simp [selectCounter, hv, selectCore2, ecxType_ecx, ecxIndex30_ecx, h]

theorem selectCounter_p6 {s : State} (hv : s.cfg.variant = .p6) :
    selectCounter s.cfg s.ecx =
      if s.c < s.cfg.nGp then some ⟨.pmc s.c, .counterBits⟩ else none := by
  simp [selectCounter, hv, selectP6, s.ecx_toNat_eq_c]

theorem selectCounter_family15 {s : State} (hv : s.cfg.variant = .family15) :
    selectCounter s.cfg s.ecx =
      if s.c30to0 < s.cfg.nGp then
        some ⟨.pmc s.c30to0, if s.c31 = 0 then .counterBits else .zero⟩
      else if s.cfg.l3Ctrs = true ∧ 18 ≤ s.c30to0 ∧ s.c30to0 ≤ 25 then
        some ⟨.pmc s.c30to0, .zero⟩
      else none := by
  rcases s.c31_cases with h | h <;>
    simp [selectCounter, hv, selectFamily15, ecxFast_ecx, ecxIndex31_ecx, h]

/-- On the Core variants a fixed index below N_FIXED selects its counter. -/
theorem selectCounter_fixed {s : State} (hv : s.cfg.variant = .coreI7 ∨ s.cfg.variant = .core2)
    (h30 : s.c30 = 1) (hi : s.c29to0 < s.cfg.nFixed) :
    selectCounter s.cfg s.ecx = some ⟨.fixed s.c29to0, .counterBits⟩ := by
  rcases hv with hv | hv
  · rw [selectCounter_coreI7 hv, if_pos ⟨h30, hi⟩]
  · rw [selectCounter_core2 hv, if_pos ⟨h30, hi⟩]

/-- On the Core variants a general-purpose index below N_GP selects its counter. -/
theorem selectCounter_generalPurpose {s : State}
    (hv : s.cfg.variant = .coreI7 ∨ s.cfg.variant = .core2) (h30 : s.c30 = 0)
    (hi : s.c29to0 < s.cfg.nGp) :
    selectCounter s.cfg s.ecx = some ⟨.pmc s.c29to0, .counterBits⟩ := by
  have hnotFixed : ¬ (s.c30 = 1 ∧ s.c29to0 < s.cfg.nFixed) := by omega
  rcases hv with hv | hv
  · rw [selectCounter_coreI7 hv, if_neg hnotFixed, if_pos ⟨h30, hi⟩]
  · rw [selectCounter_core2 hv, if_neg hnotFixed, if_pos ⟨h30, hi⟩]

/-- Only the last arm of the `core2` body is a special-purpose read, and it is reached by no other
selector (R55). -/
theorem selection_high_eq_special_iff {s : State} {sel : Selection} (h : selection s = some sel) :
    sel.high = .special ↔ s.SpecialRead := by
  have hsel := selectCounter_of_selection h
  cases hv : s.cfg.variant with
  | coreI7 =>
    rw [selectCounter_coreI7 hv] at hsel
    split_ifs at hsel <;> cases hsel <;> simp [State.SpecialRead, hv]
  | core2 =>
    rw [selectCounter_core2 hv] at hsel
    split_ifs at hsel <;> cases hsel
    all_goals
      simp only [State.SpecialRead, hv, true_and, reduceCtorEq, true_iff, false_iff]
      omega
  | p6 =>
    rw [selectCounter_p6 hv] at hsel
    split_ifs at hsel
    cases hsel
    simp [State.SpecialRead, hv]
  | family15 =>
    rw [selectCounter_family15 hv] at hsel
    split_ifs at hsel <;> cases hsel <;> simp [State.SpecialRead, hv]

/-- Settles O34: both halves of RAX, and of RDX where EDX is written, are what `upperAfter` says; EDX is
left alone by a special-purpose read of the `core2` body only. -/
theorem upperHalves : Obligations.UpperHalves := by
  intro s t h
  obtain ⟨-, -, sel, hsel, rfl⟩ := exec_next h
  have hrdx : (complete s sel).rdx.toNat / 2 ^ 32 =
        (s.upperAfter s.rdx (Config.rdxUpper s.draws)).toNat ∨
      (s.cfg.variant = .core2 ∧ s.cfg.edxSpecial = .unchanged ∧
        (complete s sel).rdx = s.rdx) :=
    (complete_rdx_upper s sel).imp_right fun ⟨hs, hrest⟩ =>
      ⟨((selection_high_eq_special_iff hsel).1 hs).1, hrest⟩
  rw [complete_rax_upper]
  refine ⟨fun hm hu => ?_, fun hm hu => ?_, fun hm => ?_⟩
  · simpa only [State.upperAfter_mode64_zero hm hu, BitVec.toNat_zero, true_and] using hrdx
  · simpa only [State.upperAfter_mode64_any hm hu, true_and] using hrdx
  · simp only [State.upperAfter_of_ne_mode64 hm, upperHalf_toNat, true_and] at hrdx ⊢
    rcases hrdx with hwritten | ⟨-, -, hleft⟩
    · exact hwritten
    · rw [hleft]

/-! ### The results at every legal width (R54 to R58; decisions D3, D12) -/

theorem readsFull_of_selection {s : State} {c : Counter} {w : Nat} (hallowed : s.Allowed)
    (hsel : selection s = some ⟨c, .counterBits⟩) (hw : s.cfg.counterWidth c = w) (hfits : w ≤ 64) :
    ReadsFull s c w := by
  subst hw
  refine ⟨_, execRdpmc_of_selection ((gateOpen_iff s).2 hallowed) hsel,
    complete_differsByRead _ _, complete_eaxNat _ _, ?_⟩
  have hlt : (ctrRead s c).toNat < 2 ^ 64 :=
    (ctrRead s c).isLt.trans_le (Nat.pow_le_pow_right (by norm_num) hfits)
  calc (complete s ⟨c, .counterBits⟩).edxNat
      = (highHalf (ctrRead s c)).toNat := complete_edxNat rfl
    _ = (ctrRead s c).toNat / 2 ^ 32 := by rw [highHalf_toNat]; omega

theorem readsLow_of_selection {s : State} {c : Counter} {w : Nat} (hallowed : s.Allowed)
    (hsel : selection s = some ⟨c, .zero⟩) (hw : s.cfg.counterWidth c = w) : ReadsLow s c w := by
  subst hw
  exact ⟨_, execRdpmc_of_selection ((gateOpen_iff s).2 hallowed) hsel,
    complete_differsByRead _ _, complete_eaxNat _ _, complete_edxNat (v := 0#32) rfl⟩

theorem raisesGp_of_selection {s : State} (hsel : selection s = none) : RaisesGp s :=
  (exec_rdpmc_eq_gp_iff s).2 fun _ => hsel

end Sys2Proof.Machine

namespace Sys2Proof

theorem Cfg.mscb_le_of_wf {k : Cfg} (h : k.wf = true) : k.mscb + 1 ≤ 64 := by
  have hfits : k.mscbFits = true := by
    simp only [Cfg.wf, Bool.and_eq_true] at h
    obtain ⟨⟨⟨⟨hm, -⟩, -⟩, -⟩, -⟩ := h
    exact hm
  have := (Cfg.mscbFits_iff k).1 hfits
  omega

/-- Below N_GP every variant has counters of MSCB + 1 bits (R20). -/
theorem Cfg.counterWidth_of_lt_nGp {k : Cfg} {i : Nat} (h : i < k.nGp) :
    k.counterWidth (.pmc i) = k.mscb + 1 := by
  cases hv : k.variant <;> simp [Cfg.counterWidth, hv, h]

/-- The indices past N_GP of `family15` have 32 bits (R20). -/
theorem Cfg.counterWidth_family15_of_nGp_le {k : Cfg} {i : Nat} (hv : k.variant = .family15)
    (h : k.nGp ≤ i) : k.counterWidth (.pmc i) = 32 := by
  simp [Cfg.counterWidth, hv, h]

/-- The special-purpose counters of `core2` have 32 bits (R20). -/
theorem Cfg.counterWidth_core2_of_isSpecial {k : Cfg} {i : Nat} (hv : k.variant = .core2)
    (h : k.nGp ≤ i) (hs : k.isSpecial i = true) : k.counterWidth (.pmc i) = 32 := by
  simp [Cfg.counterWidth, hv, h, hs]

end Sys2Proof

namespace Sys2Proof.Machine

/-- Settles O29: either arm selects its counter whole, and a legal MSCB keeps the sample within 64
bits. -/
theorem coreBodiesAtAnyWidth : Obligations.CoreBodiesAtAnyWidth := by
  intro s hv hwf hplain hallowed
  have hfits := Cfg.mscb_le_of_wf hwf
  have hsel := selection_of_not_faults hplain.not_faults
  constructor
  · intro h30 hi
    rw [selectCounter_fixed hv h30 hi] at hsel
    exact readsFull_of_selection hallowed hsel rfl hfits
  · intro h30 hi
    rw [selectCounter_generalPurpose hv h30 hi] at hsel
    exact readsFull_of_selection hallowed hsel (Cfg.counterWidth_of_lt_nGp hi) hfits

/-- The `p6` body at any width. -/
theorem p6Body_of_mscb_le {s : State} (hallowed : s.Allowed) (hfits : s.cfg.mscb + 1 ≤ 64)
    (hv : s.cfg.variant = .p6) :
    if s.c < s.cfg.nGp then ReadsFull s (.pmc s.c) (s.cfg.mscb + 1) else RaisesGp s := by
  have hsel := selection_of_not_faults (State.not_ecx31Faults_of_older (.inl hv))
  rw [selectCounter_p6 hv] at hsel
  split_ifs at hsel ⊢ with hi
  · exact readsFull_of_selection hallowed hsel (Cfg.counterWidth_of_lt_nGp hi) hfits
  · exact raisesGp_of_selection hsel

/-- The `family15` body at any width. -/
theorem family15Body_of_mscb_le {s : State} (hallowed : s.Allowed) (hfits : s.cfg.mscb + 1 ≤ 64)
    (hv : s.cfg.variant = .family15) :
    if s.c30to0 < s.cfg.nGp then
      (if s.c31 = 0 then ReadsFull s (.pmc s.c30to0) (s.cfg.mscb + 1)
       else ReadsLow s (.pmc s.c30to0) (s.cfg.mscb + 1))
    else if s.cfg.l3Ctrs = true ∧ 18 ≤ s.c30to0 ∧ s.c30to0 ≤ 25 then
      ReadsLow s (.pmc s.c30to0) 32
    else RaisesGp s := by
  have hsel := selection_of_not_faults (State.not_ecx31Faults_of_older (.inr hv))
  rw [selectCounter_family15 hv] at hsel
  split_ifs at hsel ⊢ with hi hslow hl3
  · exact readsFull_of_selection hallowed hsel (Cfg.counterWidth_of_lt_nGp hi) hfits
  · exact readsLow_of_selection hallowed hsel (Cfg.counterWidth_of_lt_nGp hi)
  · exact readsLow_of_selection hallowed hsel
      (Cfg.counterWidth_family15_of_nGp_le hv (Nat.le_of_not_lt hi))
  · exact raisesGp_of_selection hsel

/-- Settles O30. -/
theorem olderBodiesAtAnyWidth : Obligations.OlderBodiesAtAnyWidth := by
  intro s hwf hallowed
  have hfits := Cfg.mscb_le_of_wf hwf
  exact ⟨p6Body_of_mscb_le hallowed hfits, family15Body_of_mscb_le hallowed hfits⟩

/-! ### What plays no part (R10 to R14, R19, R30)

RDPMC reads a state through its gate, its selection and its completion only: a change of the state
that all three pass through unseen passes through the execution. -/

theorem selection_congr {s s' : State} (hcfg : s'.cfg = s.cfg) (hdraws : s'.draws = s.draws)
    (hecx : s'.ecx = s.ecx) : selection s' = selection s := by
  simp only [selection, hcfg, hdraws, hecx]

theorem exec_rdpmc_commutes {s : State} {g : State → State} (hgate : gateOpen (g s) = gateOpen s)
    (hsel : selection (g s) = selection s)
    (hcomplete : ∀ sel, complete (g s) sel = g (complete s sel)) :
    exec .rdpmc (g s) = mapOutcome g (exec .rdpmc s) := by
  simp only [exec_rdpmc, execRdpmc_eq, hgate, hsel]
  cases gateOpen s <;> cases selection s <;> simp [mapOutcome, hcomplete]

/-- Settles O37: gate and selection look at other fields, and completion writes other fields. -/
theorem otherRegistersAndMemoryPlayNoPart : Obligations.OtherRegistersAndMemoryPlayNoPart := by
  intro i s regs m
  cases i with
  | lockRdpmc => rfl
  | rdpmc =>
    refine exec_rdpmc_commutes (g := fun t => { t with otherRegs := regs, mem := m }) rfl rfl
      fun sel => ?_
    simp only [complete_eq]
    rfl

/-- Settles O38: the selection reads ECX, which the two values of RCX share. -/
theorem rcxUpperHalfPlaysNoPart : Obligations.RcxUpperHalfPlaysNoPart := by
  intro s r hr
  have hecx : ({ s with rcx := r } : State).ecx = s.ecx :=
    BitVec.eq_of_toNat_eq (by simpa only [State.ecx_toNat] using hr)
  refine exec_rdpmc_commutes (g := fun t => { t with rcx := r }) rfl
    (selection_congr rfl rfl hecx) fun sel => ?_
  simp only [complete_eq]
  rfl

/-- Settles O39: gate, selection and sample do not depend on RAX and RDX, and only a special-purpose
read under `unchanged` leaves an old value in EDX. -/
theorem eaxAndEdxAreNotRead : Obligations.EaxAndEdxAreNotRead := by
  intro s a d
  have hsel : selection { s with rax := a, rdx := d } = selection s := rfl
  constructor
  · intro t ht
    obtain ⟨-, hg, sel, hs, rfl⟩ := exec_next ht
    refine ⟨complete { s with rax := a, rdx := d } sel,
      execRdpmc_of_selection (s := { s with rax := a, rdx := d }) hg (hsel.trans hs),
      by rw [complete_eaxNat, complete_eaxNat]; rfl, ?_⟩
    have hleft := highOf_eq_none_iff s.cfg s.draws (ctrRead s sel.counter) sel.high
    rw [selection_high_eq_special_iff hs] at hleft
    split_ifs with hc
    · have hnone := hleft.2 hc
      exact ⟨complete_rdx_unchanged hnone,
        complete_rdx_unchanged (s := { s with rax := a, rdx := d }) hnone⟩
    · obtain ⟨v, hv⟩ := Option.ne_none_iff_exists'.1 (mt hleft.1 hc)
      rw [complete_edxNat hv, complete_edxNat (s := { s with rax := a, rdx := d }) hv]
  · intro hf
    exact (exec_rdpmc_eq_gp_iff _).2 ((exec_rdpmc_eq_gp_iff s).1 hf)

/-- Settles O40: the mode is read by `upperAfter` only, which treats all modes but 64-bit mode alike
and writes no low half. -/
theorem modeChangesOnlyUpperHalves : Obligations.ModeChangesOnlyUpperHalves := by
  intro s m
  constructor
  · intro hs hm
    refine exec_rdpmc_commutes (g := fun t => { t with mode := m }) rfl rfl fun sel => ?_
    have hm' : ({ s with mode := m } : State).mode ≠ .mode64 := hm
    simp only [complete_eq, State.upperAfter_of_ne_mode64 hs, State.upperAfter_of_ne_mode64 hm']
    rfl
  · intro t ht
    obtain ⟨-, hg, sel, hs, rfl⟩ := exec_next ht
    refine ⟨complete { s with mode := m } sel,
      execRdpmc_of_selection (s := { s with mode := m }) hg hs, ?_, ?_⟩
    · rw [complete_eaxNat, complete_eaxNat]; rfl
    · rw [complete_edxNat_eq, complete_edxNat_eq]; rfl

/-! ### Two reads in a row (R59, R94) -/

/-- A fetch of readable bytes gives them, and then what stands after them. -/
theorem fetchBytes_of_read {m : Memory} {bs : List Byte} {a : Nat}
    (h : ∀ k (hk : k < bs.length), m.read (a + k) = some bs[k]) (n : Nat) :
    fetchBytes m a (bs.length + n) = bs ++ fetchBytes m (a + bs.length) n := by
  induction bs generalizing a with
  | nil => simp
  | cons b bs ih =>
    have hb : m.read a = some b := h 0 (Nat.zero_lt_succ _)
    have htail : ∀ k (hk : k < bs.length), m.read (a + 1 + k) = some bs[k] := fun k hk => by
      rw [Nat.add_assoc, Nat.add_comm 1]
      exact h (k + 1) (Nat.succ_lt_succ hk)
    rw [List.length_cons, Nat.add_right_comm, fetchBytes_succ, hb, ← Nat.add_assoc,
      Nat.add_right_comm, List.cons_append]
    exact congrArg (b :: ·) (ih htail)

/-- The bare form in the program text is what the step runs (R31, R48). -/
theorem step_of_bare_text {s : State} (h : s.TextAt s.pc [0x0F#8, 0x33#8]) :
    step s = exec .rdpmc s := by
  have hfetched : s.fetched = 0x0F#8 :: 0x33#8 :: fetchBytes s.mem (s.pc + 2) 1 :=
    fetchBytes_of_read h 1
  rw [step, hfetched]
  rfl

/-- Where no free value decides on ECX[31], the next execution of the same selector selects the same
counter. -/
theorem selection_complete {s : State} {sel : Selection} (hsel : selection s = some sel)
    (heither : s.cfg.ecx31Policy = .either →
      s.c31 = 0 ∨ s.cfg.variant = .p6 ∨ s.cfg.variant = .family15) :
    selection (complete s sel) = some sel := by
  have hc : (complete s sel).c31 = s.c31 := by simp only [State.c31, State.c, complete_rcx]
  have hecx : (complete s sel).ecx = s.ecx := by simp only [State.ecx, complete_rcx]
  have hfaults : ¬ (complete s sel).Ecx31Faults := by
    obtain ⟨-, hnot⟩ := (selection_isSome_iff s).1 ⟨sel, hsel⟩
    rintro ⟨hv, h31, hpolicy⟩
    rw [complete_cfg] at hv hpolicy
    rw [hc] at h31
    rcases hpolicy with hfault | ⟨hpol, -⟩
    · exact hnot ⟨hv, h31, .inl hfault⟩
    · rcases heither hpol with h0 | hold
      · omega
      · rcases hv with hv | hv <;> simp [hv] at hold
  rw [selection_of_not_faults hfaults, complete_cfg, hecx]
  exact selectCounter_of_selection hsel

theorem gateOpen_complete (s : State) (sel : Selection) :
    gateOpen (complete s sel) = gateOpen s := by
  simp [gateOpen]

/-- Settles O41: the first read leaves gate, selector and configuration as they were, so the second
completes with the next draw. -/
theorem backToBackReads : Obligations.BackToBackReads := by
  intro s t sel hsel hstep htext heither
  obtain ⟨-, hg, sel', hsel', rfl⟩ := step_next hstep
  obtain rfl : sel = sel' := Option.some.inj (hsel.symm.trans hsel')
  have hnext := execRdpmc_of_selection ((gateOpen_complete s sel).trans hg)
    (selection_complete hsel heither)
  refine ⟨_, (step_of_bare_text htext).trans hnext, by simp, by simp, ?_⟩
  rw [complete_eaxNat, ctrRead, complete_draws, complete_cfg]

end Sys2Proof.Machine

/-! ### Table 4-12 (R20, R21, R22) -/

namespace Sys2Proof

/-- RDPMC can read `PMC[i]` on the processor: one of the general-purpose counters, a special-purpose
one or an L3 one. -/
def Cfg.HasPmc (k : Cfg) (i : Nat) : Prop :=
  i < k.nGp ∨ (k.variant = .core2 ∧ k.isSpecial i = true) ∨
    (k.variant = .family15 ∧ k.l3Ctrs = true ∧ 18 ≤ i ∧ i ≤ 25)

/-- With bits 31 and 30 of ECX clear the selector is an index of the file `PMC`. -/
theorem Machine.State.selects_iff_hasPmc {s : Machine.State} (h : s.c < 2 ^ 30) :
    s.Selects ↔ s.cfg.HasPmc s.c := by
  have h30 : s.c30 = 0 := by simp only [State.c30]; omega
  have hi : s.c29to0 = s.c := Nat.mod_eq_of_lt h
  have hi31 : s.c30to0 = s.c := Nat.mod_eq_of_lt (by omega)
  cases hv : s.cfg.variant <;>
    simp [State.Selects, Cfg.HasPmc, Cfg.isSpecial_iff, hv, h30, hi, hi31]

/-- Column "Valid PMC Index Range" gives the counters of the row's configuration. -/
theorem Processor.cfg_hasPmc_iff {p : Processor} {r : IndexRange} (h : p.validPmcRange = some r)
    (o : OpenParams) (i : Nat) : (p.cfg o).HasPmc i ↔ r.lo ≤ i ∧ i ≤ r.hi := by
  cases p <;> cases h <;>
    simp [Processor.cfg, OpenParams.toCfg, Cfg.HasPmc, Cfg.isSpecial, IndexRange.has] <;> omega

/-- Column "General-purpose Counters" gives the indices below N_GP. -/
theorem Processor.lt_cfg_nGp_iff {p : Processor} {g : IndexRange}
    (h : p.generalPurposeRange = some g) (o : OpenParams) (i : Nat) :
    i < (p.cfg o).nGp ↔ g.lo ≤ i ∧ i ≤ g.hi := by
  cases p <;> cases h <;> simp [Processor.cfg, OpenParams.toCfg] <;> omega

/-- Settles O42: with ECX below 2^30 RDPMC completes where the processor has the counter, which is what
the table's column says. -/
theorem tableAgreesWithBodies : Obligations.TableAgreesWithBodies := by
  intro p o r s hr hcfg hallowed hc
  have hplain : s.Ecx31Plain := .inl (Nat.div_eq_of_lt (by omega))
  calc (∃ t, Machine.exec .rdpmc s = .next t)
      ↔ s.Allowed ∧ s.SelectorValid := Machine.exec_rdpmc_completes_iff s
    _ ↔ s.Selects := ⟨fun h => h.2.1, fun h => ⟨hallowed, h, hplain.not_faults⟩⟩
    _ ↔ (p.cfg o).HasPmc s.c := hcfg ▸ Machine.State.selects_iff_hasPmc hc
    _ ↔ r.lo ≤ s.c ∧ s.c ≤ r.hi := Processor.cfg_hasPmc_iff hr o s.c

/-- Settles O43: past the general-purpose column a counter is a special-purpose or an L3 one. -/
theorem tableWidths : Obligations.TableWidths := by
  intro p o v g i hv hg hlo hhi
  have hgp := Processor.lt_cfg_nGp_iff hg o i
  split_ifs with hi
  · exact Cfg.counterWidth_of_lt_nGp (hgp.2 hi)
  · have hge : (p.cfg o).nGp ≤ i := Nat.le_of_not_lt (mt hgp.1 hi)
    rcases (Processor.cfg_hasPmc_iff hv o i).2 ⟨hlo, hhi⟩ with hlt | ⟨h2, hs⟩ | ⟨h15, -⟩
    · exact absurd hlt hge.not_gt
    · exact Cfg.counterWidth_core2_of_isSpecial h2 hge hs
    · exact Cfg.counterWidth_family15_of_nGp_le h15 hge

theorem Processor.fits_iff (p : Processor) (family model : Nat) (l3 : Bool) :
    p.fits family model l3 = true ↔
      (family, model) ∈ p.signatures ∧ ∀ b, p.l3Condition = some b → l3 = b := by
  cases h : p.l3Condition <;> simp [Processor.fits, h]

theorem Processor.mem_all (p : Processor) : p ∈ Processor.all := by
  cases p <;> decide

/-- Two rows of Table 4-12 that list the same signature ask for L3 and for its absence (R21). -/
theorem Processor.l3Condition_of_shared_signature :
    ∀ p ∈ Processor.all, ∀ q ∈ Processor.all, ∀ sig ∈ p.signatures, sig ∈ q.signatures →
      p = q ∨ (p.l3Condition = some true ∧ q.l3Condition = some false) ∨
        (p.l3Condition = some false ∧ q.l3Condition = some true) := by
  decide

theorem Processor.eq_of_fits {p q : Processor} {family model : Nat} {l3 : Bool}
    (hp : p.fits family model l3 = true) (hq : q.fits family model l3 = true) : p = q := by
  obtain ⟨hpsig, hpl3⟩ := (p.fits_iff ..).1 hp
  obtain ⟨hqsig, hql3⟩ := (q.fits_iff ..).1 hq
  rcases Processor.l3Condition_of_shared_signature p p.mem_all q q.mem_all _ hpsig hqsig with
    heq | ⟨hpc, hqc⟩ | ⟨hpc, hqc⟩
  · exact heq
  · exact absurd ((hpl3 _ hpc).symm.trans (hql3 _ hqc)) (by decide)
  · exact absurd ((hpl3 _ hpc).symm.trans (hql3 _ hqc)) (by decide)

theorem fits_of_processorOf {p : Processor} {family model : Nat} {l3 : Bool}
    (h : processorOf family model l3 = some p) : p.fits family model l3 = true := by
  rw [processorOf] at h
  simpa using List.find?_some h

/-- The lookup answers a row wherever one fits. -/
theorem exists_processorOf {p : Processor} {family model : Nat} {l3 : Bool}
    (h : p.fits family model l3 = true) : ∃ q, processorOf family model l3 = some q :=
  Option.isSome_iff_exists.1 (List.find?_isSome.2 ⟨p, p.mem_all, h⟩)

/-- Settles O45: the lookup answers a row that fits, and no other row does. -/
theorem signaturesAreUnambiguous : Obligations.SignaturesAreUnambiguous := by
  refine ⟨fun p q family model l3 => Processor.eq_of_fits,
    fun p family model l3 => ⟨fits_of_processorOf, fun h => ?_⟩⟩
  obtain ⟨q, hq⟩ := exists_processorOf h
  rwa [Processor.eq_of_fits h (fits_of_processorOf hq)]

end Sys2Proof

/-!
PROOFS of the statements of the family 20_memory.md: what a step fetches from the program text and
runs, where it faults for missing text, and the value that a completed read leaves in EDX:EAX.
-/

namespace Sys2Proof.Machine

/-! ### Fetch and step (R31, R48) -/

theorem step_of_decode {s : State} {i : Instr} {rest : List Byte}
    (h : decode s.fetched = .ok (i, rest)) : step s = exec i s := by
  rw [step, h]

/-- Settles O4. -/
theorem stepRunsDecoded : Obligations.StepRunsDecoded :=
  fun _ _ _ hdecode _ => step_of_decode hdecode

/-- The LOCK-prefixed form in the program text is what the step runs (R31, R48). -/
theorem step_of_locked_text {s : State} (h : s.TextAt s.pc [0xF0#8, 0x0F#8, 0x33#8]) :
    step s = exec .lockRdpmc s := by
  have hfetched : s.fetched = [0xF0#8, 0x0F#8, 0x33#8] := fetchBytes_of_read h 0
  exact step_of_decode (rest := []) (hfetched ▸ rfl)

/-- Settles O5. -/
theorem stepFetchesAdmittedForms : Obligations.StepFetchesAdmittedForms :=
  fun _ => ⟨step_of_bare_text, step_of_locked_text⟩

end Sys2Proof.Machine

/-! ### Missing program text (R31; decision D20) -/

namespace Sys2Proof

theorem rejectAt_ne_truncated (b : Byte) : rejectAt b ≠ .truncated := by
  rw [rejectAt]
  split <;> nofun

theorem decodeSecond_truncated_iff (i : Instr) (bs : List Byte) :
    decodeSecond i bs = .error .truncated ↔ bs = [] := by
  cases bs with
  | nil => simp [decodeSecond]
  | cons b rest => rw [decodeSecond]; split <;> simp

/-- After the LOCK prefix two bytes always decide. -/
theorem length_lt_of_decodeLocked_truncated {bs : List Byte}
    (h : decodeLocked bs = .error .truncated) : bs.length < 2 := by
  cases bs with
  | nil => simp
  | cons b rest =>
    rw [decodeLocked] at h
    split at h
    · obtain rfl := (decodeSecond_truncated_iff ..).1 h
      simp
    · exact absurd (Except.error.inj h) (rejectAt_ne_truncated b)

/-- As many bytes as the longest form has always decide (R48). -/
theorem length_lt_of_decode_truncated {bs : List Byte} (h : decode bs = .error .truncated) :
    bs.length < maxInstrLength := by
  cases bs with
  | nil => decide
  | cons b rest =>
    rw [decode] at h
    split_ifs at h
    · obtain rfl := (decodeSecond_truncated_iff ..).1 h
      simp [maxInstrLength]
    · exact Nat.succ_lt_succ (length_lt_of_decodeLocked_truncated h)
    · exact absurd (Except.error.inj h) (rejectAt_ne_truncated b)

end Sys2Proof

namespace Sys2Proof.Machine

/-- An execution ends in no fault of the fetch. -/
theorem exec_ne_noProgramText (i : Instr) (s : State) (a : Nat) :
    exec i s ≠ .fault (.noProgramText a) := by
  cases i with
  | lockRdpmc => nofun
  | rdpmc =>
    rw [exec_rdpmc, execRdpmc_eq]
    cases gateOpen s <;> cases selection s <;> nofun

/-- A step faults for missing text exactly where the fetched bytes end inside a form, and it names
the address after them. -/
theorem step_noProgramText_iff (s : State) (a : Nat) :
    step s = .fault (.noProgramText a) ↔
      decode s.fetched = .error .truncated ∧ s.pc + s.fetched.length = a := by
  cases hdecode : decode s.fetched with
  | ok r => simpa [step, hdecode] using exec_ne_noProgramText r.1 s a
  | error e => cases e <;> simp [step, hdecode, undecoded]

/-- Settles O7: fewer than three bytes were fetched, and such a fetch ended at an address without a
byte. -/
theorem missingTextFaults : Obligations.MissingTextFaults := by
  constructor
  · intro s a h
    obtain ⟨hdecode, rfl⟩ := (step_noProgramText_iff s a).1 h
    have hshort : s.fetched.length < 3 := length_lt_of_decode_truncated hdecode
    exact ⟨read_after_short_fetch _ _ _ hshort, by omega, by omega⟩
  · intro s h
    have hfetched : s.fetched = [] := by rw [State.fetched, maxInstrLength, fetchBytes_succ, h]
    exact (step_noProgramText_iff s s.pc).2 (by rw [hfetched]; exact ⟨rfl, rfl⟩)

end Sys2Proof.Machine

/-! ### Placed text (log entries 9 and 25) -/

namespace Sys2Proof

theorem length_bytesMsbFirst (n w : Nat) : (bytesMsbFirst n w).length = n := by
  induction n with
  | zero => rfl
  | succ n ih => rw [bytesMsbFirst, List.length_cons, ih]

/-- A table word of at most the longest form's bytes is laid out as that many bytes. -/
theorem length_tableBytes {nbits : Nat} (w : Nat) (h : (nbits + 7) / 8 ≤ maxInstrLength) :
    (tableBytes nbits w).length = maxInstrLength := by
  simp only [tableBytes, List.length_append, length_bytesMsbFirst, List.length_replicate]
  omega

theorem decode_of_decodeTableWord {nbits w : Nat} {i : Instr}
    (h : decodeTableWord nbits w = some i) :
    ∃ rest, decode (tableBytes nbits w) = .ok (i, rest) := by
  rw [decodeTableWord] at h
  split at h
  case h_1 j rest hdecode => exact ⟨rest, Option.some.inj h ▸ hdecode⟩
  case h_2 => cases h

end Sys2Proof

namespace Sys2Proof.Machine

theorem State.fetched_withFetchWord (s : State) {nbits : Nat} (w : Nat)
    (h : (nbits + 7) / 8 ≤ maxInstrLength) :
    (s.withFetchWord nbits w).fetched = tableBytes nbits w := by
  have hfetch := fetchBytes_writeBytes (tableBytes nbits w) s.mem s.pc
  rwa [length_tableBytes w h] at hfetch

/-- A placed word no longer than the longest form runs as the instruction that it decodes to. -/
theorem step_withFetchWord (s : State) {nbits w : Nat} {i : Instr}
    (hfits : (nbits + 7) / 8 ≤ maxInstrLength) (hword : decodeTableWord nbits w = some i) :
    step (s.withFetchWord nbits w) = exec i (s.withFetchWord nbits w) := by
  obtain ⟨rest, hdecode⟩ := decode_of_decodeTableWord hword
  rw [← s.fetched_withFetchWord w hfits] at hdecode
  exact step_of_decode hdecode

/-- Settles O8: the table's two words decode to the two forms. -/
theorem placedWordRuns : Obligations.PlacedWordRuns :=
  fun s => ⟨step_withFetchWord s (by decide) (by decide),
    step_withFetchWord s (by decide) (by decide)⟩

end Sys2Proof.Machine

/-! ### EDX:EAX after a completed read (R33, R58; decision D3) -/

namespace Sys2Proof

/-- A counter has 32 bits or MSCB + 1 of them (R20). -/
theorem Cfg.counterWidth_eq_or (k : Cfg) (c : Counter) :
    k.counterWidth c = 32 ∨ k.counterWidth c = k.mscb + 1 := by
  cases c with
  | fixed i => exact .inr rfl
  | pmc i =>
    simp only [Cfg.counterWidth]
    cases k.variant with
    | coreI7 => exact .inr rfl
    | core2 => exact ite_eq_or_eq ..
    | p6 => exact .inr rfl
    | family15 => exact (ite_eq_or_eq ..).symm

/-- Every counter of a legal configuration fits EDX:EAX. -/
theorem Cfg.counterWidth_le_of_wf {k : Cfg} (h : k.wf = true) (c : Counter) :
    k.counterWidth c ≤ 64 := by
  have := Cfg.mscb_le_of_wf h
  rcases k.counterWidth_eq_or c with hw | hw <;> omega

end Sys2Proof

namespace Sys2Proof.Machine

/-- The counter of a special-purpose read has 32 bits (R20, R55). -/
theorem counterWidth_of_special {s : State} {sel : Selection} (hsel : selection s = some sel)
    (hhigh : sel.high = .special) : s.cfg.counterWidth sel.counter = 32 := by
  obtain ⟨hv, h30, hge⟩ := (selection_high_eq_special_iff hsel).1 hhigh
  have hbody := selectCounter_of_selection hsel
  rw [selectCounter_core2 hv] at hbody
  rw [if_neg (by omega), if_neg (by omega)] at hbody
  split_ifs at hbody with hspecial
  cases hbody
  exact Cfg.counterWidth_core2_of_isSpecial hv hge hspecial.2

/-- Settles O32: the selection says which result the read has, and a legal configuration has no
counter wider than EDX:EAX. -/
theorem edxEaxIsTheSample : Obligations.EdxEaxIsTheSample := by
  rintro s t ⟨c, high⟩ hwf hsel ht
  have hallowed : s.Allowed := ((exec_rdpmc_completes_iff s).1 ⟨t, ht⟩).1
  refine ⟨?_, ?_, fun hhigh => ?_⟩
  · rintro rfl
    obtain ⟨u, hu, -, heax, hedx⟩ :=
      readsFull_of_selection hallowed hsel rfl (Cfg.counterWidth_le_of_wf hwf c)
    cases ht.symm.trans hu
    rw [heax, hedx]
    exact Nat.div_add_mod' _ _
  · rintro rfl
    obtain ⟨u, hu, -, heax, hedx⟩ := readsLow_of_selection hallowed hsel rfl
    cases ht.symm.trans hu
    rw [heax, hedx, Nat.zero_mul, Nat.zero_add]
    rfl
  · obtain ⟨-, -, sel, hsel', rfl⟩ := exec_next ht
    cases hsel.symm.trans hsel'
    rw [complete_eaxNat]
    refine Nat.mod_eq_of_lt ((ctrRead s c).isLt.trans_eq ?_)
    rw [counterWidth_of_special hsel hhigh]

end Sys2Proof.Machine

/-!
PROOFS of the statements of the family 30_encoding.md: the decoder is the inverse of the encoder, and
every other program text is refused.
-/

/-! ### The decoder inverts the encoder (R40, R43, R48) -/

namespace Sys2Proof

/-- After the first opcode byte the decoder succeeds on the second opcode byte only. -/
theorem decodeSecond_eq_ok_iff (i j : Instr) (bs rest : List Byte) :
    decodeSecond i bs = .ok (j, rest) ↔ i = j ∧ bs = opcodeByte1 :: rest := by
  cases bs with
  | nil => simp [decodeSecond]
  | cons b tail =>
    rw [decodeSecond]
    split <;> simp [*]

/-- After the LOCK prefix the decoder succeeds on the two opcode bytes only. -/
theorem decodeLocked_eq_ok_iff (i : Instr) (bs rest : List Byte) :
    decodeLocked bs = .ok (i, rest) ↔
      .lockRdpmc = i ∧ bs = opcodeByte0 :: opcodeByte1 :: rest := by
  cases bs with
  | nil => simp [decodeLocked]
  | cons b tail =>
    rw [decodeLocked]
    split
    · simp [decodeSecond_eq_ok_iff, *]
    · simp [*]

/-- The decoder succeeds on the encodings and on nothing else (R44). -/
theorem decode_eq_ok_iff (i : Instr) (bs rest : List Byte) :
    decode bs = .ok (i, rest) ↔ bs = encode i ++ rest := by
  cases bs with
  | nil => cases i <;> simp [decode, encode]
  | cons b tail =>
    rw [decode]
    split_ifs with hbare hlock
    · rw [decodeSecond_eq_ok_iff, hbare]
      cases i <;> simp [encode, opcodeByte0, opcodeByte1]
    · rw [decodeLocked_eq_ok_iff, hlock]
      cases i <;> simp [encode, lockByte, opcodeByte0, opcodeByte1]
    · rw [opcodeByte0] at hbare
      rw [lockByte] at hlock
      cases i <;> simp [encode, hbare, hlock]

theorem Instr.wf_eq_true (i : Instr) : i.wf = true := by
  cases i <;> rfl

/-- Settles O2: the decoder succeeds on the encodings and on nothing else. -/
theorem decodeEncodeAgree : Obligations.DecodeEncodeAgree :=
  ⟨fun i _ _ => (decode_eq_ok_iff i ..).2 rfl,
    fun _ i _ hdecode => ⟨(decode_eq_ok_iff i ..).1 hdecode, i.wf_eq_true⟩⟩

/-- Settles O3: `0F 33` is what the encoder gives for RDPMC. -/
theorem rdpmcHasOneEncoding : Obligations.RdpmcHasOneEncoding :=
  ⟨decode_eq_ok_iff .rdpmc, rfl⟩

/-! ### Words of the opcode table, written out -/

/-- Settles O1: seven fixed byte strings, by running the decoder on each. -/
theorem specWordsDecode : Obligations.SpecWordsDecode := by
  unfold Obligations.SpecWordsDecode
  decide

end Sys2Proof

/-! ### Everything else is refused (R44, R46; decision D7) -/

namespace Sys2Proof.Machine

/-- As many bytes as the longest form has, beginning with no encoding, are refused. -/
theorem step_refused_of_fetched_ne_encode {s : State} (hlen : maxInstrLength ≤ s.fetched.length)
    (hother : ∀ (i : Instr) (rest : List Byte), s.fetched ≠ encode i ++ rest) :
    ∃ r, step s = .refused r := by
  cases hdecode : decode s.fetched with
  | ok r => exact absurd ((decode_eq_ok_iff ..).1 hdecode) (hother r.1 r.2)
  | error e =>
    rw [step, hdecode]
    cases e with
    | truncated => exact absurd hlen (length_lt_of_decode_truncated hdecode).not_ge
    | otherPrefix b => exact ⟨.otherPrefix b, rfl⟩
    | unlisted b => exact ⟨.unlistedEncoding b, rfl⟩

/-- Settles O6: three bytes were fetched, so no form is cut short, and they begin with neither
encoding. -/
theorem otherFormsRefused : Obligations.OtherFormsRefused := by
  intro s b0 b1 b2 htext hbare hlocked
  have hfetched : s.fetched = [b0, b1, b2] := fetchBytes_of_read htext 0
  refine step_refused_of_fetched_ne_encode (hfetched ▸ le_rfl) fun i rest heq => ?_
  rw [hfetched] at heq
  cases i with
  | rdpmc =>
    cases heq
    exact hbare ⟨rfl, rfl⟩
  | lockRdpmc =>
    cases heq
    exact hlocked ⟨rfl, rfl, rfl⟩

end Sys2Proof.Machine

/-!
PROOFS of the statements of the family 40_rdpmc.md: when RDPMC completes and when it faults, the
four bodies at the numbers of R3, the policies on ECX[31] and the flags.
-/

namespace Sys2Proof.Machine

/-! ### Completion or #GP(0) (R51, R52, R62, R77; decision D8) -/

/-- RDPMC has no third outcome. -/
theorem exec_rdpmc_completes_or_gp (s : State) :
    (∃ t, exec .rdpmc s = .next t) ∨ exec .rdpmc s = .fault (.gp0 s) := by
  rw [exec_rdpmc_eq_gp_iff]
  cases hsel : selection s with
  | none => exact .inr fun _ => rfl
  | some sel =>
    cases hg : gateOpen s with
    | false => exact .inr nofun
    | true => exact .inl ⟨_, execRdpmc_of_selection hg hsel⟩

theorem raisesGp_of_not_allowed {s : State} (h : ¬ s.Allowed) : RaisesGp s :=
  (exec_rdpmc_eq_gp_iff s).2 fun hg => absurd ((gateOpen_iff s).1 hg) h

/-- Settles O19. -/
theorem rdpmcCompletesIff : Obligations.RdpmcCompletesIff := fun s =>
  ⟨(exec_rdpmc_completes_iff s).2,
    fun h => (exec_rdpmc_completes_or_gp s).resolve_left (mt (exec_rdpmc_completes_iff s).1 h)⟩

/-- Settles O18. -/
theorem privilegeGate : Obligations.PrivilegeGate :=
  ⟨fun s hvalid => (exec_rdpmc_completes_iff s).trans (and_iff_left hvalid),
    fun _ => raisesGp_of_not_allowed⟩

/-- Settles O16: each form has one fault, which carries the state that it was given. -/
theorem faultsCarryPreState : Obligations.FaultsCarryPreState := by
  intro i s f hf
  cases i with
  | rdpmc =>
    rcases exec_rdpmc_completes_or_gp s with ⟨t, ht⟩ | hgp
    · cases hf.symm.trans ht
    · cases hf.symm.trans hgp
      exact ⟨.inl ⟨rfl, rfl⟩, rfl⟩
  | lockRdpmc =>
    cases hf
    exact ⟨.inr ⟨rfl, rfl⟩, rfl⟩

/-- Settles O22. -/
theorem lockTestedFirst : Obligations.LockTestedFirst := fun s htext =>
  ⟨step_of_locked_text htext, (rdpmcCompletesIff s).2⟩

/-! ### The four bodies at the numbers of R3 (R54 to R57) -/

theorem ctrRead_toNat {s : State} {c : Counter} {w : Nat} (hw : s.cfg.counterWidth c = w) :
    (ctrRead s c).toNat = s.sample c w := by
  subst hw
  rfl

theorem readsSpecial_of_selection {s : State} {c : Counter} (hallowed : s.Allowed)
    (hsel : selection s = some ⟨c, .special⟩) : ReadsSpecial s c := by
  refine ⟨_, execRdpmc_of_selection ((gateOpen_iff s).2 hallowed) hsel,
    complete_differsByRead _ _, ?_, ?_⟩
  · rw [complete_eaxNat, ctrRead_toNat (counterWidth_of_special hsel rfl)]
    exact Nat.mod_eq_of_lt (BitVec.isLt _)
  · have hhigh : highOf s.cfg s.draws (ctrRead s c) .special = edxSpecial s.cfg s.draws := rfl
    cases hp : s.cfg.edxSpecial <;> rw [edxSpecial, hp] at hhigh
    case any => exact complete_edxNat hhigh
    case unchanged => exact complete_rdx_unchanged hhigh
    case zero => exact complete_edxNat (v := 0#32) hhigh

/-- Settles O25. -/
theorem coreI7Body : Obligations.CoreI7Body := by
  intro s hv hmscb hgp hplain
  refine ⟨raisesGp_of_not_allowed, fun hallowed => ?_⟩
  have hsel := selection_of_not_faults hplain.not_faults
  have hwidth : s.cfg.mscb + 1 = 48 := by rw [hmscb]
  rw [selectCounter_coreI7 hv, hgp] at hsel
  split_ifs at hsel ⊢ with hfixed hpmc
  · exact readsFull_of_selection hallowed hsel hwidth (by decide)
  · exact readsFull_of_selection hallowed hsel
      ((Cfg.counterWidth_of_lt_nGp (hgp ▸ hpmc.2)).trans hwidth) (by decide)
  · exact raisesGp_of_selection hsel

/-- The special-purpose indices are 2 to 9, on a processor that has them (R3). -/
theorem Cfg.isSpecial_iff_of_legal {k : Cfg}
    (h : k.special = none ∨ k.special = some ⟨2, 9⟩) (i : Nat) :
    k.isSpecial i = true ↔ k.special = some ⟨2, 9⟩ ∧ 2 ≤ i ∧ i ≤ 9 := by
  rw [Cfg.isSpecial_iff]
  rcases h with h | h <;> simp [h]

/-- Settles O26. -/
theorem core2Body : Obligations.Core2Body := by
  intro s hv hmscb hgp hnFixed hspecial hplain
  refine ⟨raisesGp_of_not_allowed, fun hallowed => ?_⟩
  have hsel := selection_of_not_faults hplain.not_faults
  have hwidth : s.cfg.mscb + 1 = 40 := by rw [hmscb]
  simp only [selectCounter_core2 hv, hgp, hnFixed, Cfg.isSpecial_iff_of_legal hspecial,
    and_left_comm (a := s.c30 = 0) (b := s.cfg.special = some ⟨2, 9⟩)] at hsel
  split_ifs at hsel ⊢ with hfixed hpmc hindex
  · exact readsFull_of_selection hallowed hsel hwidth (by decide)
  · exact readsFull_of_selection hallowed hsel
      ((Cfg.counterWidth_of_lt_nGp (hgp ▸ hpmc.2)).trans hwidth) (by decide)
  · exact readsSpecial_of_selection hallowed hsel
  · exact raisesGp_of_selection hsel

/-- Settles O27: the body at any width, with N_GP = 2. -/
theorem p6Body : Obligations.P6Body := by
  intro s hv hmscb hgp
  refine ⟨raisesGp_of_not_allowed, fun hallowed => ?_⟩
  have hbody := p6Body_of_mscb_le hallowed (by omega) hv
  have hindex : s.c < 2 ↔ s.c = 0 ∨ s.c = 1 := by omega
  simpa only [hmscb, hgp, hindex] using hbody

/-- Settles O28: the body at any width, with N_GP = 18. -/
theorem family15Body : Obligations.Family15Body := by
  intro s hv hmscb hgp
  refine ⟨raisesGp_of_not_allowed, fun hallowed => ?_⟩
  have hbody := family15Body_of_mscb_le hallowed (by omega) hv
  have hindex : s.c30to0 < 18 ↔ s.c30to0 ≤ 17 := Nat.lt_succ_iff
  simpa only [hmscb, hgp, hindex] using hbody

/-! ### The bits of EDX above the counter (R58; decisions D3, D22) -/

/-- Without special-purpose indices a Core selector is a fixed or a general-purpose one, so no read
is special-purpose. -/
theorem not_specialRead_of_special_none {s : State} (hvalid : s.SelectorValid)
    (hnone : s.cfg.special = none) : ¬ s.SpecialRead := by
  rintro ⟨hv, h30, hge⟩
  obtain ⟨hselects, -⟩ := hvalid
  simp only [State.Selects, hv, hnone, reduceCtorEq, false_and, exists_false, and_false,
    or_false] at hselects
  omega

/-- Where the sample has at most `n` bits above bit 31, so has EDX. -/
theorem complete_edxNat_lt {s : State} {sel : Selection} {n : Nat} (hhigh : sel.high ≠ .special)
    (hw : s.cfg.mscb + 1 ≤ 32 + n) : (complete s sel).edxNat < 2 ^ n := by
  have hlt : (ctrRead s sel.counter).toNat < 2 ^ (32 + n) := by
    refine (ctrRead s sel.counter).isLt.trans_le (Nat.pow_le_pow_right (by decide) ?_)
    rcases s.cfg.counterWidth_eq_or sel.counter with h | h <;> omega
  rw [complete_edxNat_eq]
  cases h : sel.high with
  | special => exact absurd h hhigh
  | zero => exact Nat.two_pow_pos n
  | counterBits =>
    calc (highHalf (ctrRead s sel.counter)).toNat
        ≤ (ctrRead s sel.counter).toNat / 2 ^ 32 := by
          rw [highHalf_toNat]
          exact Nat.mod_le ..
      _ < 2 ^ n := Nat.div_lt_of_lt_mul (Nat.pow_add 2 32 n ▸ hlt)

/-- Settles O33: no read of the three clauses is special-purpose. -/
theorem edxTopBitsZero : Obligations.EdxTopBitsZero := by
  intro s t ht
  obtain ⟨-, -, sel, hsel, rfl⟩ := exec_next ht
  have hlt {n : Nat} (hnot : ¬ s.SpecialRead) (hw : s.cfg.mscb + 1 ≤ 32 + n) :
      (complete s sel).edxNat < 2 ^ n :=
    complete_edxNat_lt (mt (selection_high_eq_special_iff hsel).1 hnot) hw
  refine ⟨fun hv hmscb => hlt ?_ (by omega), fun _ hmscb hnone => hlt ?_ (by omega),
    fun hv hmscb => hlt ?_ (by omega)⟩
  · simp [State.SpecialRead, hv]
  · exact not_specialRead_of_special_none ((selection_isSome_iff s).1 ⟨sel, hsel⟩) hnone
  · rcases hv with hv | hv <;> simp [State.SpecialRead, hv]

/-! ### The two Core bodies (R53) -/

/-- The processor with its variant changed to `core2`. -/
def State.asCore2 (s : State) : State := { s with cfg := { s.cfg with variant := .core2 } }

theorem counterWidth_asCore2 {s : State} (hv : s.cfg.variant = .coreI7)
    (hnone : s.cfg.special = none) (c : Counter) :
    s.asCore2.cfg.counterWidth c = s.cfg.counterWidth c := by
  cases c with
  | fixed i => rfl
  | pmc i => simp [Cfg.counterWidth, Cfg.isSpecial, State.asCore2, hv, hnone]

/-- Without special-purpose indices the last arm of the `core2` body selects nothing. -/
theorem selection_asCore2 {s : State} (hv : s.cfg.variant = .coreI7)
    (hnone : s.cfg.special = none) : selection s.asCore2 = selection s := by
  have hrejects : ecx31Rejects s.asCore2.cfg s.asCore2.draws s.asCore2.ecx =
      ecx31Rejects s.cfg s.draws s.ecx := by
    rw [ecx31Rejects, ecx31Rejects, hv]
    rfl
  have hspecial (i : Nat) : s.asCore2.cfg.isSpecial i = false := by
    simp [Cfg.isSpecial, State.asCore2, hnone]
  have hselect : selectCounter s.asCore2.cfg s.asCore2.ecx = selectCounter s.cfg s.ecx := by
    rw [selectCounter_coreI7 hv, selectCounter_core2 (s := s.asCore2) rfl]
    simp only [hspecial, Bool.false_eq_true, and_false, if_false]
    rfl
  rw [selection, selection, hrejects, hselect]

/-- What is cut from a sample depends on the draw, the counter and its width only. -/
theorem ctrRead_congr {α : Type} (f : ∀ {w : Nat}, BitVec w → α) {s s' : State} {c : Counter}
    (hdraws : s'.draws = s.draws) (hw : s'.cfg.counterWidth c = s.cfg.counterWidth c) :
    f (ctrRead s' c) = f (ctrRead s c) := by
  rw [ctrRead, ctrRead, hdraws, hw]

theorem complete_asCore2 {s : State} (hv : s.cfg.variant = .coreI7)
    (hnone : s.cfg.special = none) (sel : Selection) :
    complete s.asCore2 sel = { complete s sel with cfg := s.asCore2.cfg } := by
  have hw := counterWidth_asCore2 hv hnone sel.counter
  have hlow := ctrRead_congr lowHalf (s := s) (s' := s.asCore2) rfl hw
  have hhigh := ctrRead_congr (fun v => highOf s.cfg s.draws v sel.high) (s := s)
    (s' := s.asCore2) rfl hw
  simp only [complete_eq, hlow, ← hhigh]
  rfl

/-- Settles O31. -/
theorem coreBodiesCoincide : Obligations.CoreBodiesCoincide := fun s hv hnone =>
  exec_rdpmc_commutes (g := fun t => { t with cfg := s.asCore2.cfg }) rfl
    (selection_asCore2 hv hnone) (complete_asCore2 hv hnone)

/-! ### The policies on ECX[31] (R63; decision D4) -/

/-- The same ECX with bit 31 clear, where it is set. -/
def State.clearEcx31 (s : State) : State := { s with rcx := s.rcx - BitVec.ofNat 64 (2 ^ 31) }

theorem State.clearEcx31_c {s : State} (h : s.c31 = 1) : s.clearEcx31.c = s.c - 2 ^ 31 := by
  have hlt := s.rcx.isLt
  simp only [State.c31, State.c] at h
  simp only [State.clearEcx31, State.c, BitVec.toNat_sub, BitVec.toNat_ofNat]
  omega

/-- The selector of a Core variant does not look at bit 31. -/
theorem selectCounter_clearEcx31 {s : State}
    (hv : s.cfg.variant = .coreI7 ∨ s.cfg.variant = .core2) (h : s.c31 = 1) :
    selectCounter s.clearEcx31.cfg s.clearEcx31.ecx = selectCounter s.cfg s.ecx := by
  have hc := State.clearEcx31_c h
  have hge : 2 ^ 31 ≤ s.c := by simp only [State.c31] at h; omega
  have h30 : s.clearEcx31.c30 = s.c30 := by simp only [State.c30, hc]; omega
  have hindex : s.clearEcx31.c29to0 = s.c29to0 := by simp only [State.c29to0, hc]; omega
  rcases hv with hv | hv
  · rw [selectCounter_coreI7 hv, selectCounter_coreI7 (s := s.clearEcx31) hv, h30, hindex]
    rfl
  · rw [selectCounter_core2 hv, selectCounter_core2 (s := s.clearEcx31) hv, h30, hindex]
    rfl

/-- Where the policy does not make it fault, bit 31 plays no part. -/
theorem exec_rdpmc_clearEcx31 {s : State}
    (hv : s.cfg.variant = .coreI7 ∨ s.cfg.variant = .core2) (h : s.c31 = 1)
    (hnot : ¬ s.Ecx31Faults) :
    exec .rdpmc s =
      mapOutcome (fun t => { t with rcx := s.rcx }) (exec .rdpmc s.clearEcx31) := by
  have hclear : s.clearEcx31.c31 = 0 := by
    have := s.c_lt
    simp only [State.c31, State.clearEcx31_c h]
    omega
  have hplain : ¬ s.clearEcx31.Ecx31Faults := State.Ecx31Plain.not_faults (.inl hclear)
  refine exec_rdpmc_commutes (s := s.clearEcx31) (g := fun t => { t with rcx := s.rcx }) rfl ?_
    fun sel => ?_
  · calc selection s
        = selectCounter s.cfg s.ecx := selection_of_not_faults hnot
      _ = selectCounter s.clearEcx31.cfg s.clearEcx31.ecx := (selectCounter_clearEcx31 hv h).symm
      _ = selection s.clearEcx31 := (selection_of_not_faults hplain).symm
  · simp only [complete_eq]
    rfl

theorem exec_rdpmc_of_ecx31Faults {s : State} (h : s.Ecx31Faults) :
    exec .rdpmc s = .fault (.gp0 s) :=
  raisesGp_of_selection ((selection_eq_none_iff s).2 fun hvalid => hvalid.2 h)

/-- Settles O35: each policy says whether the execution faults; where it does not, bit 31 plays no
part. -/
theorem ecx31Policies : Obligations.Ecx31Policies := by
  intro s hv h
  refine ⟨fun hignore => ?_, fun hfault => ?_, fun heither => ?_⟩
  · exact exec_rdpmc_clearEcx31 hv h (State.Ecx31Plain.not_faults (.inr (.inl hignore)))
  · exact exec_rdpmc_of_ecx31Faults ⟨hv, h, .inl hfault⟩
  · split_ifs with hdraw
    · exact exec_rdpmc_of_ecx31Faults ⟨hv, h, .inr ⟨heither, hdraw⟩⟩
    · refine exec_rdpmc_clearEcx31 hv h ?_
      rintro ⟨-, -, hfault | ⟨-, htrue⟩⟩
      · cases heither.symm.trans hfault
      · exact hdraw htrue

/-! ### The flags (R60) -/

/-- Settles O36: gate and selection do not look at the flags, and completion leaves them. -/
theorem flagsPlayNoPart : Obligations.FlagsPlayNoPart := by
  intro i s f
  constructor
  · cases i with
    | lockRdpmc => rfl
    | rdpmc =>
      refine exec_rdpmc_commutes (g := fun t => { t with flags := f }) rfl rfl fun sel => ?_
      simp only [complete_eq]
      rfl
  · intro t ht
    obtain ⟨-, -, sel, -, rfl⟩ := exec_next ht
    exact complete_flags s sel

end Sys2Proof.Machine

/-!
PROOFS of the statements of the family 60_exceptions.md: which exception each form raises, in which
situations, in each mode, and with which error code.
-/

namespace Sys2Proof.Machine

/-! ### The two exceptions (R70, R71, R73, R78, R79; decision D17) -/

/-- Either form completes or raises one of the two exceptions. -/
theorem safeOutcome_exec (i : Instr) (s : State) : SafeOutcome (exec i s) := by
  cases i with
  | lockRdpmc => trivial
  | rdpmc =>
    rcases exec_rdpmc_completes_or_gp s with ⟨t, ht⟩ | hgp
    · rw [ht]
      trivial
    · rw [hgp]
      trivial

/-- Settles O10: the step runs the form that stands at the pc. -/
theorem admittedFormsAreSafe : Obligations.AdmittedFormsAreSafe := by
  rintro s (hbare | hlocked)
  · rw [step_of_bare_text hbare]
    exact safeOutcome_exec .rdpmc s
  · rw [step_of_locked_text hlocked]
    exact safeOutcome_exec .lockRdpmc s

/-- Outside real-address mode a handler is given the exception's own error code. -/
theorem Exception.deliveredErrorCode_eq (e : Exception) (m : Mode) :
    e.deliveredErrorCode m = if m = .realAddress then none else e.errorCode := by
  cases m <;> rfl

/-- Settles O17. -/
theorem exceptionErrorCodes : Obligations.ExceptionErrorCodes :=
  ⟨rfl, rfl, Exception.gp0.deliveredErrorCode_eq,
    fun m => (Exception.ud.deliveredErrorCode_eq m).trans (ite_self none)⟩

/-- The one fault of RDPMC is #GP(0) with the state that it was given. -/
theorem eq_gp_of_exec_rdpmc_fault {s : State} {f : Fault} (h : exec .rdpmc s = .fault f) :
    f = .gp0 s := by
  obtain ⟨⟨-, hgp⟩ | ⟨hlock, -⟩, -⟩ := faultsCarryPreState .rdpmc s f h
  · exact hgp
  · cases hlock

/-- Settles O21: the LOCK-prefixed form has no other outcome, and RDPMC no other fault than #GP(0). -/
theorem udExactlyForLock : Obligations.UdExactlyForLock := by
  refine ⟨exec_lockRdpmc, fun s p hud => ?_, rfl⟩
  cases eq_gp_of_exec_rdpmc_fault hud

/-! ### The situations of #GP(0) (R70, R72 to R76; decision D16) -/

/-- Where ECX[31] makes no execution fault, the selector is valid exactly if it selects a counter. -/
theorem State.Ecx31Plain.selectorValid_iff {s : State} (h : s.Ecx31Plain) :
    s.SelectorValid ↔ s.Selects :=
  and_iff_left h.not_faults

/-- #GP(0) means a failed gate or a selector of no counter. -/
theorem exec_rdpmc_eq_gp_iff_of_plain {s : State} (hplain : s.Ecx31Plain) :
    exec .rdpmc s = .fault (.gp0 s) ↔ ¬ s.Allowed ∨ ¬ s.Selects := by
  rw [exec_rdpmc_eq_gp_iff, gateOpen_iff, selection_eq_none_iff, hplain.selectorValid_iff,
    imp_iff_not_or]

theorem State.not_allowed_iff (s : State) :
    ¬ s.Allowed ↔ s.cr0Pe = true ∧ s.cr4Pce = false ∧ s.cpl ≠ 0 := by
  simp only [State.Allowed, not_or, Bool.not_eq_true, Bool.not_eq_false]
  tauto

/-- With CR0.PE = 1 the gate fails on CPL and CR4.PCE alone (R72, R75, R76). -/
theorem State.not_allowed_iff_of_cr0Pe {s : State} (hpe : s.cr0Pe = true) :
    ¬ s.Allowed ↔ s.cpl ≠ 0 ∧ s.cr4Pce = false := by
  rw [s.not_allowed_iff, and_iff_right hpe, and_comm]

/-- The exceptions of every mode in which CR0.PE = 1. -/
theorem exec_rdpmc_eq_gp_iff_of_cr0Pe {s : State} (hplain : s.Ecx31Plain) (hpe : s.cr0Pe = true) :
    exec .rdpmc s = .fault (.gp0 s) ↔ (s.cpl ≠ 0 ∧ s.cr4Pce = false) ∨ ¬ s.Selects := by
  rw [exec_rdpmc_eq_gp_iff_of_plain hplain, State.not_allowed_iff_of_cr0Pe hpe]

/-- CR0.PE is set in every mode but real-address mode (R19). -/
theorem State.ModesLegal.cr0Pe_of_ne_realAddress {s : State} (h : s.ModesLegal)
    (hmode : s.mode ≠ .realAddress) : s.cr0Pe = true :=
  Bool.eq_true_of_not_eq_false (mt h.1.mpr hmode)

theorem ne_zero_iff_eq_one_or_two_or_three :
    ∀ cpl : Fin 4, cpl ≠ 0 ↔ cpl = 1 ∨ cpl = 2 ∨ cpl = 3 := by
  decide

/-- Settles O20: the gate is tested before the selector, so the two situations exclude each other. -/
theorem gpInExactlyTwoSituations : Obligations.GpInExactlyTwoSituations := by
  intro s hplain
  refine ⟨fun f => ?_, rfl⟩
  rw [← ne_zero_iff_eq_one_or_two_or_three, ← s.not_allowed_iff]
  have hgp : exec .rdpmc s = .fault (.gp0 s) ↔ ¬ s.Allowed ∨ (s.Allowed ∧ ¬ s.Selects) := by
    rw [exec_rdpmc_eq_gp_iff_of_plain hplain]
    tauto
  constructor
  · intro hf
    obtain rfl := eq_gp_of_exec_rdpmc_fault hf
    exact ⟨rfl, hgp.1 hf⟩
  · rintro ⟨rfl, hsituation⟩
    exact hgp.2 hsituation

/-- Settles O23. -/
theorem protectedModeExceptions : Obligations.ProtectedModeExceptions :=
  fun s _ hpe hplain => ⟨exec_rdpmc_eq_gp_iff_of_cr0Pe hplain hpe, exec_lockRdpmc s⟩

/-- Settles O24: CR0.PE is clear in real-address mode and set in the other two, and CPL is 3 in
virtual-8086 mode. -/
theorem otherModesExceptions : Obligations.OtherModesExceptions := by
  intro s hmodes hplain
  have ⟨hreal, hv86, _⟩ := hmodes
  refine ⟨fun hmode => ?_, fun hmode => ?_, fun hmode => ?_⟩
  · have hallowed : s.Allowed := .inr (.inr (hreal.1 hmode))
    rw [exec_rdpmc_eq_gp_iff_of_plain hplain]
    exact or_iff_right (not_not_intro hallowed)
  · have hpe := hmodes.cr0Pe_of_ne_realAddress (by simp [hmode])
    have hcpl : s.cpl ≠ 0 := by rw [hv86 hmode]; decide
    rw [exec_rdpmc_eq_gp_iff_of_cr0Pe hplain hpe, and_iff_right hcpl]
  · exact exec_rdpmc_eq_gp_iff_of_cr0Pe hplain
      (hmodes.cr0Pe_of_ne_realAddress (by simp [hmode]))

end Sys2Proof.Machine
